-- ==== Sys2Proof/Word.lean ====
section
/-!
DEFINITION. The word types of the Intel XScale core and nothing else (rules R7, R10, R20, R30): every helper that
computes with a word (bit fields, sign extension, byte lanes) stands in Machine/Bits.lean.
-/

namespace Sys2Proof

/-- A 32-bit word: a general register, a status register, a CP15 register, an address (rule R7). Bit 0 is the
least significant bit (rule R10). -/
abbrev Word := BitVec 32

/-- One byte of memory. -/
abbrev Byte := BitVec 8

/-- The number of a general register as an instruction's 4-bit field names it, R0 to R15 (rule R20). -/
abbrev Reg := BitVec 4

/-- The accumulator of coprocessor 0: 40 bits, bits 39 to 0 (rule R30). -/
abbrev Acc := BitVec 40

end Sys2Proof
end

