-- ==== Sys2Proof/Config.lean ====
section
/-!
DEFINITION. What an implementation fixes: the sizes the spec gives; and what the spec leaves open, whose constants are
opaque (they have no body), so that no proof can see a value and a claim holds whatever it is. An opaque constant that
takes a `Nat` is applied to `State.tick`, the number of steps taken, so that two steps may draw two values (log 19).
-/

namespace Sys2Proof.Config

/-! ## Sizes the spec gives (rules R6 to R8) -/

/-- The bytes of a line of every cache (rules R6, R7, conflict C1). -/
def cacheLineBytes : Nat := 32

/-- The bytes the instruction cache holds (rules R6, R54). -/
def instructionCacheBytes : Nat := 32768

/-- The sets of the instruction cache (rules R6, R54). -/
def instructionCacheSets : Nat := 32

/-- The ways of a set of the instruction cache, one line each (rules R6, R54). -/
def instructionCacheWays : Nat := 32

/-- The bytes the data cache holds (rules R6, R55). -/
def dataCacheBytes : Nat := 32768

/-- The bytes the mini-data cache holds (rules R6, R55). -/
def miniDataCacheBytes : Nat := 2048

/-- The entries of each TLB (rules R6, R7, R50). -/
def tlbEntries : Nat := 32

/-- The entries of the branch target buffer: the parameter `BTB_ENTRIES`, not in the source (rules R6, R7). The buffer
has no architectural effect (rule R57). DESIGN CHOICE, log 26. -/
opaque btbEntries : Nat

/-! ## Free values -/

/-- The bit written `x` in the alignment status `0b000x1` (rules R75, R347), drawn at each alignment abort. DESIGN
CHOICE, log 19. -/
opaque alignmentCodeBit : Nat → Bool

/-- FSR bits 7:4 after an abort whose domain is not valid (rules R341, R347, R364). DESIGN CHOICE, log 19. -/
opaque invalidDomain : Nat → BitVec 4

/-- FSR bits 31:11, 9 and 8 after an abort: what they become is not stated (rule R364). DESIGN CHOICE, log 19. -/
opaque fsrUnstated : Nat → Word

/-- The FAR after a lock abort or an imprecise abort, where it is undefined (rules R346, R349). DESIGN CHOICE,
log 19. -/
opaque undefinedFar : Nat → Word

/-- The bad data an access with an imprecise abort leaves in a destination register (rule R352); the second argument
numbers the words of one access. DESIGN CHOICE, log 21. -/
opaque badLoad : Nat → Nat → Word

/-- A byte that a store or swap with an external error leaves in memory, in a region that is not stall-until-complete
(rules R296, R352, R402); the second argument is the physical address. DESIGN CHOICE, log 21. -/
opaque badStoreByte : Nat → Nat → Byte

/-- Whether STR of R15 stores the instruction's address plus 12, and not plus 8 (rule R281, A53). DESIGN CHOICE,
log 33. -/
opaque storePcPlus12 : Bool

/-- Whether an external abort on the table walk of an instruction fetch is reported as the instruction MMU abort
`0b10000`, and not as the external instruction error `0b10110` (rules R96, R341). DESIGN CHOICE, log 34. -/
opaque fetchWalkAbortIsMmu : Bool

/-- CP15 register 0, opcode_2 = 0: the identification register, read-only (rule R44). DESIGN CHOICE, log 13. -/
opaque mainId : Word

/-- CP15 register 0, opcode_2 = 1: the cache type register, read-only (rule R44). DESIGN CHOICE, log 13. -/
opaque cacheType : Word

end Sys2Proof.Config
end

