-- ==== Sys2Proof/Syntax.lean ====
section
/-!
DEFINITION. The instructions of the Intel XScale core as this spec admits them: one constructor of `Instr` for each
of the 58 rows of spec/opcode_table.json, in the table's order. A constructor's arguments are the row's fields in
the order of the encoding, from bit 31 down (rules R142 to R153).
-/

namespace Sys2Proof

/-- The fifteen conditions of a conditional instruction (rule R28). The code `0b1111` is no condition: it opens the
unconditional space (rule R146), whose instructions carry no `Cond`. -/
inductive Cond where
  | eq | ne | cs | cc | mi | pl | vs | vc | hi | ls | ge | lt | gt | le | al
  deriving DecidableEq, Repr

/-- The four shift kinds of a shifter operand (rule R148). -/
inductive Shift where
  | lsl | lsr | asr | ror
  deriving DecidableEq, Repr

/-- The three admitted addressing forms of a load or store (rule R149): the P and W bits. P = 0 with W = 1 is not
admitted in either format (rule R155), so it has no constructor. -/
inductive Index where
  /-- P = 1, W = 0: the base is unchanged. -/
  | offset
  /-- P = 1, W = 1: the address is written back. -/
  | preIndexed
  /-- P = 0, W = 0: the address is the base, and base plus or minus offset is written back. -/
  | postIndexed
  deriving DecidableEq, Repr

/-- Which half of a register a 16-bit multiply takes (rules R152, R181): the x and y bits. -/
inductive Half where
  /-- Bits 15:0, field value 0. -/
  | bottom
  /-- Bits 31:16, field value 1. -/
  | top
  deriving DecidableEq, Repr

/-- The instructions, one constructor for each row of spec/opcode_table.json. -/
inductive Instr where
  /-- `PLD [Rn, #±offset_12]` (rules R150, R195). -/
  | pldImm (u : Bool) (rn : Reg) (offset : BitVec 12)
  /-- `PLD [Rn, ±Rm, shift #shift_imm]` (rules R150, R195). -/
  | pldReg (u : Bool) (rn : Reg) (shiftImm : BitVec 5) (shift : Shift) (rm : Reg)
  /-- `BLX <target>` (rule R303). -/
  | blxImm (h : Bool) (imm : BitVec 24)
  /-- `MIA acc0, Rm, Rs` (rule R215). -/
  | mia (c : Cond) (rs rm : Reg)
  /-- `MIAPH acc0, Rm, Rs` (rule R217). -/
  | miaph (c : Cond) (rs rm : Reg)
  /-- `MIABB acc0, Rm, Rs` (rule R219). -/
  | miabb (c : Cond) (rs rm : Reg)
  /-- `MIABT acc0, Rm, Rs` (rule R220). -/
  | miabt (c : Cond) (rs rm : Reg)
  /-- `MIATB acc0, Rm, Rs` (rule R221). -/
  | miatb (c : Cond) (rs rm : Reg)
  /-- `MIATT acc0, Rm, Rs` (rule R222). -/
  | miatt (c : Cond) (rs rm : Reg)
  /-- `MAR acc0, RdLo, RdHi` (rule R233). -/
  | mar (c : Cond) (rdHi rdLo : Reg)
  /-- `MRA RdLo, RdHi, acc0` (rule R234). -/
  | mra (c : Cond) (rdHi rdLo : Reg)
  /-- `MCRR` to a coprocessor other than 0 (rules R201, R203). -/
  | mcrr (c : Cond) (rn rd cp op crm : BitVec 4)
  /-- `MRRC` from a coprocessor other than 0 (rules R202, R203). -/
  | mrrc (c : Cond) (rn rd cp op crm : BitVec 4)
  /-- `MCR p15, 0, Rd, CRn, CRm, opcode_2` (rule R242). -/
  | mcr (c : Cond) (crn : BitVec 4) (rd : Reg) (op2 : BitVec 3) (crm : BitVec 4)
  /-- `MRC p15, 0, Rd, CRn, CRm, opcode_2` (rule R241). -/
  | mrc (c : Cond) (crn : BitVec 4) (rd : Reg) (op2 : BitVec 3) (crm : BitVec 4)
  /-- `B <target>` (rule R298). -/
  | b (c : Cond) (imm : BitVec 24)
  /-- `BL <target>` (rule R299). -/
  | bl (c : Cond) (imm : BitVec 24)
  /-- `SWI #immed_24` (rule R305). -/
  | swi (c : Cond) (imm : BitVec 24)
  /-- `LDR Rd, [Rn, #±offset_12]` in its three indexing forms (rule R280). -/
  | ldrImm (c : Cond) (m : Index) (u : Bool) (rn rd : Reg) (offset : BitVec 12)
  /-- `LDR Rd, [Rn, ±Rm, shift #shift_imm]` (rule R280). -/
  | ldrReg (c : Cond) (m : Index) (u : Bool) (rn rd : Reg) (shiftImm : BitVec 5) (shift : Shift) (rm : Reg)
  /-- `STR Rd, [Rn, #±offset_12]` (rule R281). -/
  | strImm (c : Cond) (m : Index) (u : Bool) (rn rd : Reg) (offset : BitVec 12)
  /-- `STR Rd, [Rn, ±Rm, shift #shift_imm]` (rule R281). -/
  | strReg (c : Cond) (m : Index) (u : Bool) (rn rd : Reg) (shiftImm : BitVec 5) (shift : Shift) (rm : Reg)
  /-- `MLA{S} Rd, Rm, Rs, Rn` (rule R290). -/
  | mla (c : Cond) (s : Bool) (rd rn rs rm : Reg)
  /-- `SWP Rd, Rm, [Rn]` (rule R296). -/
  | swp (c : Cond) (rn rd rm : Reg)
  /-- `SWPB Rd, Rm, [Rn]` (rule R297). -/
  | swpb (c : Cond) (rn rd rm : Reg)
  /-- `LDRSH Rd, [Rn, #±offset_8]` (rule R287). -/
  | ldrshImm (c : Cond) (m : Index) (u : Bool) (rn rd : Reg) (offset : BitVec 8)
  /-- `LDRSH Rd, [Rn, ±Rm]` (rule R287). -/
  | ldrshReg (c : Cond) (m : Index) (u : Bool) (rn rd rm : Reg)
  /-- `LDRD Rd, [Rn, #±offset_8]` (rule R191). -/
  | ldrdImm (c : Cond) (m : Index) (u : Bool) (rn rd : Reg) (offset : BitVec 8)
  /-- `LDRD Rd, [Rn, ±Rm]` (rule R191). -/
  | ldrdReg (c : Cond) (m : Index) (u : Bool) (rn rd rm : Reg)
  /-- `STRD Rd, [Rn, #±offset_8]` (rule R192). -/
  | strdImm (c : Cond) (m : Index) (u : Bool) (rn rd : Reg) (offset : BitVec 8)
  /-- `STRD Rd, [Rn, ±Rm]` (rule R192). -/
  | strdReg (c : Cond) (m : Index) (u : Bool) (rn rd rm : Reg)
  /-- `SMLA<x><y> Rd, Rm, Rs, Rn` (rule R182). -/
  | smla (c : Cond) (rd rn rs : Reg) (y x : Half) (rm : Reg)
  /-- `SMLAW<y> Rd, Rm, Rs, Rn` (rule R183). -/
  | smlaw (c : Cond) (rd rn rs : Reg) (y : Half) (rm : Reg)
  /-- `SMULW<y> Rd, Rm, Rs` (rule R186). -/
  | smulw (c : Cond) (rd rs : Reg) (y : Half) (rm : Reg)
  /-- `SMLAL<x><y> RdLo, RdHi, Rm, Rs` (rule R184). -/
  | smlal (c : Cond) (rdHi rdLo rs : Reg) (y x : Half) (rm : Reg)
  /-- `SMUL<x><y> Rd, Rm, Rs` (rule R185). -/
  | smul (c : Cond) (rd rs : Reg) (y x : Half) (rm : Reg)
  /-- `QADD Rd, Rm, Rn` (rule R187). -/
  | qadd (c : Cond) (rn rd rm : Reg)
  /-- `QSUB Rd, Rm, Rn` (rule R189). -/
  | qsub (c : Cond) (rn rd rm : Reg)
  /-- `QDADD Rd, Rm, Rn` (rule R188). -/
  | qdadd (c : Cond) (rn rd rm : Reg)
  /-- `QDSUB Rd, Rm, Rn` (rule R190). -/
  | qdsub (c : Cond) (rn rd rm : Reg)
  /-- `BX Rm` (rule R301). -/
  | bx (c : Cond) (rm : Reg)
  /-- `BLX Rm` (rule R302). -/
  | blxReg (c : Cond) (rm : Reg)
  /-- `CLZ Rd, Rm` (rule R304). -/
  | clz (c : Cond) (rd rm : Reg)
  /-- `MRS Rd, CPSR` (R = 0) and `MRS Rd, SPSR` (R = 1) (rule R306). -/
  | mrs (c : Cond) (r : Bool) (rd : Reg)
  /-- `MSR CPSR_<fields>, Rm` and `MSR SPSR_<fields>, Rm` (rule R307). -/
  | msrReg (c : Cond) (r : Bool) (mask : BitVec 4) (rm : Reg)
  /-- `MSR CPSR_<fields>, #immediate` and the SPSR form (rule R307). -/
  | msrImm (c : Cond) (r : Bool) (mask rot : BitVec 4) (imm : BitVec 8)
  /-- `MOV{S} Rd, #immediate` (rule R270). -/
  | movImm (c : Cond) (s : Bool) (rd : Reg) (rot : BitVec 4) (imm : BitVec 8)
  /-- `MOV{S} Rd, Rm, shift #shift_imm` (rule R270). -/
  | movShiftImm (c : Cond) (s : Bool) (rd : Reg) (shiftImm : BitVec 5) (shift : Shift) (rm : Reg)
  /-- `MOV{S} Rd, Rm, shift Rs` (rule R270). -/
  | movShiftReg (c : Cond) (s : Bool) (rd rs : Reg) (shift : Shift) (rm : Reg)
  /-- `ADD{S} Rd, Rn, #immediate` (rule R271). -/
  | addImm (c : Cond) (s : Bool) (rn rd : Reg) (rot : BitVec 4) (imm : BitVec 8)
  /-- `ADD{S} Rd, Rn, Rm, shift #shift_imm` (rule R271). -/
  | addShiftImm (c : Cond) (s : Bool) (rn rd : Reg) (shiftImm : BitVec 5) (shift : Shift) (rm : Reg)
  /-- `ADD{S} Rd, Rn, Rm, shift Rs` (rule R271). -/
  | addShiftReg (c : Cond) (s : Bool) (rn rd rs : Reg) (shift : Shift) (rm : Reg)
  /-- `SUB{S} Rd, Rn, #immediate` (rule R273). -/
  | subImm (c : Cond) (s : Bool) (rn rd : Reg) (rot : BitVec 4) (imm : BitVec 8)
  /-- `SUB{S} Rd, Rn, Rm, shift #shift_imm` (rule R273). -/
  | subShiftImm (c : Cond) (s : Bool) (rn rd : Reg) (shiftImm : BitVec 5) (shift : Shift) (rm : Reg)
  /-- `SUB{S} Rd, Rn, Rm, shift Rs` (rule R273). -/
  | subShiftReg (c : Cond) (s : Bool) (rn rd rs : Reg) (shift : Shift) (rm : Reg)
  /-- `ORR{S} Rd, Rn, #immediate` (rule R272). -/
  | orrImm (c : Cond) (s : Bool) (rn rd : Reg) (rot : BitVec 4) (imm : BitVec 8)
  /-- `ORR{S} Rd, Rn, Rm, shift #shift_imm` (rule R272). -/
  | orrShiftImm (c : Cond) (s : Bool) (rn rd : Reg) (shiftImm : BitVec 5) (shift : Shift) (rm : Reg)
  /-- `ORR{S} Rd, Rn, Rm, shift Rs` (rule R272). -/
  | orrShiftReg (c : Cond) (s : Bool) (rn rd rs : Reg) (shift : Shift) (rm : Reg)
  deriving DecidableEq, Repr

end Sys2Proof
end

