-- ==== Sys2Proof/WellFormed.lean ====
section
/-!
DEFINITION. Which terms of `Instr` an encoding admits (`Instr.encodable`) and which of those name a predictable
combination of registers (`Instr.predictable`, the UNPREDICTABLE rows of 93_implementation_defined.md A.1 and A.3).
`Instr.wellFormed` is both. The decoder answers only encodable terms; a meaning checks `predictable` after the
condition, because a failed condition makes any instruction a no-operation (rules R28, R211; log 30).
-/

namespace Sys2Proof

/-- The register number of R15, the program counter (rule R23). -/
def Reg.pc : Reg := 15

/-- The register number of R14, the link register (rule R22). -/
def Reg.lr : Reg := 14

/-- None of the named registers is R15. -/
def Reg.noneIsPc (rs : List Reg) : Bool := rs.all (fun r => r != Reg.pc)

namespace Index

/-- Whether the form writes the base register (rule R149). -/
def writesBack : Index → Bool
  | offset => false
  | preIndexed => true
  | postIndexed => true

end Index

/-- Writeback with Rn = R15, or with Rn = Rd, is UNPREDICTABLE (rule R149, A50). -/
def basePredictable (m : Index) (rn rd : Reg) : Bool :=
  !m.writesBack || (rn != Reg.pc && rn != rd)

/-- LDRD and STRD: Rd is even and not R14, and writeback does not name Rd or Rd + 1 as its base, nor R15 (rule R191,
A52). -/
def doublePredictable (m : Index) (rn rd : Reg) : Bool :=
  !rd.getLsbD 0 && rd != Reg.lr && (!m.writesBack || (rn != Reg.pc && rn != rd && rn != rd + 1))

/-- LDRD and STRD with a register offset: moreover Rm is neither Rd nor Rd + 1, nor R15 together with writeback
(rule R191, A52). -/
def doubleIndexPredictable (m : Index) (rd rm : Reg) : Bool :=
  rm != rd && rm != rd + 1 && (!m.writesBack || rm != Reg.pc)

namespace Instr

/-- What the encoding itself admits (rule R155): MCRR and MRRC name a coprocessor other than 0, LDRD and STRD an even
Rd. Every other field may hold every value. -/
def encodable : Instr → Bool
  | mcrr _ _ _ cp _ _ => cp != 0
  | mrrc _ _ _ cp _ _ => cp != 0
  | ldrdImm _ _ _ _ rd _ => !rd.getLsbD 0
  | ldrdReg _ _ _ _ rd _ => !rd.getLsbD 0
  | strdImm _ _ _ _ rd _ => !rd.getLsbD 0
  | strdReg _ _ _ _ rd _ => !rd.getLsbD 0
  | pldImm .. | pldReg .. | blxImm .. | mia .. | miaph .. | miabb .. | miabt .. | miatb .. | miatt .. | mar ..
  | mra .. | mcr .. | mrc .. | b .. | bl .. | swi .. | ldrImm .. | ldrReg .. | strImm .. | strReg .. | mla ..
  | swp .. | swpb .. | ldrshImm .. | ldrshReg .. | smla .. | smlaw .. | smulw .. | smlal .. | smul .. | qadd ..
  | qsub .. | qdadd .. | qdsub .. | bx .. | blxReg .. | clz .. | mrs .. | msrReg .. | msrImm .. | movImm ..
  | movShiftImm .. | movShiftReg .. | addImm .. | addShiftImm .. | addShiftReg .. | subImm .. | subShiftImm ..
  | subShiftReg .. | orrImm .. | orrShiftImm .. | orrShiftReg .. => true

/-- The register combinations the spec does not call UNPREDICTABLE, instruction by instruction. -/
def predictable : Instr → Bool
  | pldImm _ _ _ => true
  -- A60
  | pldReg _ _ _ _ rm => rm != Reg.pc
  | blxImm _ _ => true
  -- A4 (rule R212)
  | mia _ rs rm => Reg.noneIsPc [rs, rm]
  | miaph _ rs rm => Reg.noneIsPc [rs, rm]
  | miabb _ rs rm => Reg.noneIsPc [rs, rm]
  | miabt _ rs rm => Reg.noneIsPc [rs, rm]
  | miatb _ rs rm => Reg.noneIsPc [rs, rm]
  | miatt _ rs rm => Reg.noneIsPc [rs, rm]
  -- A5, A6 (rule R232)
  | mar _ rdHi rdLo => Reg.noneIsPc [rdHi, rdLo] && rdHi != rdLo
  | mra _ rdHi rdLo => Reg.noneIsPc [rdHi, rdLo] && rdHi != rdLo
  | mcrr _ _ _ _ _ _ => true
  | mrrc _ _ _ _ _ _ => true
  -- rule R242, A55
  | mcr _ _ rd _ _ => rd != Reg.pc
  | mrc _ _ _ _ _ => true
  | b _ _ => true
  | bl _ _ => true
  | swi _ _ => true
  -- rule R149, A50
  | ldrImm _ m _ rn rd _ => basePredictable m rn rd
  | ldrReg _ m _ rn rd _ _ _ => basePredictable m rn rd
  | strImm _ m _ rn rd _ => basePredictable m rn rd
  | strReg _ m _ rn rd _ _ _ => basePredictable m rn rd
  -- rule R290, A46, A48
  | mla _ _ rd rn rs rm => Reg.noneIsPc [rd, rn, rs, rm] && rd != rm
  -- rules R296, R297, A46, A49
  | swp _ rn rd rm => Reg.noneIsPc [rn, rd, rm] && rn != rm && rn != rd
  | swpb _ rn rd rm => Reg.noneIsPc [rn, rd, rm] && rn != rm && rn != rd
  -- rule R287, A50
  | ldrshImm _ m _ rn rd _ => rd != Reg.pc && basePredictable m rn rd
  | ldrshReg _ m _ rn rd _ => rd != Reg.pc && basePredictable m rn rd
  -- rules R191, R192, A52
  | ldrdImm _ m _ rn rd _ => doublePredictable m rn rd
  | ldrdReg _ m _ rn rd rm => doublePredictable m rn rd && doubleIndexPredictable m rd rm
  | strdImm _ m _ rn rd _ => doublePredictable m rn rd
  | strdReg _ m _ rn rd rm => doublePredictable m rn rd && doubleIndexPredictable m rd rm
  -- rule R181, A46
  | smla _ rd rn rs _ _ rm => Reg.noneIsPc [rd, rn, rs, rm]
  | smlaw _ rd rn rs _ rm => Reg.noneIsPc [rd, rn, rs, rm]
  | smulw _ rd rs _ rm => Reg.noneIsPc [rd, rs, rm]
  -- rule R184, A46, A47
  | smlal _ rdHi rdLo rs _ _ rm => Reg.noneIsPc [rdHi, rdLo, rs, rm] && rdHi != rdLo
  | smul _ rd rs _ _ rm => Reg.noneIsPc [rd, rs, rm]
  | qadd _ rn rd rm => Reg.noneIsPc [rn, rd, rm]
  | qsub _ rn rd rm => Reg.noneIsPc [rn, rd, rm]
  | qdadd _ rn rd rm => Reg.noneIsPc [rn, rd, rm]
  | qdsub _ rn rd rm => Reg.noneIsPc [rn, rd, rm]
  | bx _ _ => true
  -- rule R302
  | blxReg _ rm => rm != Reg.pc
  -- rule R304, A46
  | clz _ rd rm => Reg.noneIsPc [rd, rm]
  -- rule R306
  | mrs _ _ rd => rd != Reg.pc
  | msrReg _ _ _ _ => true
  | msrImm _ _ _ _ _ => true
  | movImm _ _ _ _ _ => true
  | movShiftImm _ _ _ _ _ _ => true
  -- rule R148, A45
  | movShiftReg _ _ rd rs _ rm => Reg.noneIsPc [rd, rs, rm]
  | addImm _ _ _ _ _ _ => true
  | addShiftImm _ _ _ _ _ _ _ => true
  | addShiftReg _ _ rn rd rs _ rm => Reg.noneIsPc [rn, rd, rs, rm]
  | subImm _ _ _ _ _ _ => true
  | subShiftImm _ _ _ _ _ _ _ => true
  | subShiftReg _ _ rn rd rs _ rm => Reg.noneIsPc [rn, rd, rs, rm]
  | orrImm _ _ _ _ _ _ => true
  | orrShiftImm _ _ _ _ _ _ _ => true
  | orrShiftReg _ _ rn rd rs _ rm => Reg.noneIsPc [rn, rd, rs, rm]

/-- The condition of an instruction; PLD and BLX with an immediate are unconditional (rules R141, R146). -/
def condition : Instr → Option Cond
  | pldImm .. => none
  | pldReg .. => none
  | blxImm .. => none
  | mia c _ _ => some c
  | miaph c _ _ => some c
  | miabb c _ _ => some c
  | miabt c _ _ => some c
  | miatb c _ _ => some c
  | miatt c _ _ => some c
  | mar c _ _ => some c
  | mra c _ _ => some c
  | mcrr c _ _ _ _ _ => some c
  | mrrc c _ _ _ _ _ => some c
  | mcr c _ _ _ _ => some c
  | mrc c _ _ _ _ => some c
  | b c _ => some c
  | bl c _ => some c
  | swi c _ => some c
  | ldrImm c _ _ _ _ _ => some c
  | ldrReg c _ _ _ _ _ _ _ => some c
  | strImm c _ _ _ _ _ => some c
  | strReg c _ _ _ _ _ _ _ => some c
  | mla c _ _ _ _ _ => some c
  | swp c _ _ _ => some c
  | swpb c _ _ _ => some c
  | ldrshImm c _ _ _ _ _ => some c
  | ldrshReg c _ _ _ _ _ => some c
  | ldrdImm c _ _ _ _ _ => some c
  | ldrdReg c _ _ _ _ _ => some c
  | strdImm c _ _ _ _ _ => some c
  | strdReg c _ _ _ _ _ => some c
  | smla c _ _ _ _ _ _ => some c
  | smlaw c _ _ _ _ _ => some c
  | smulw c _ _ _ _ => some c
  | smlal c _ _ _ _ _ _ => some c
  | smul c _ _ _ _ _ => some c
  | qadd c _ _ _ => some c
  | qsub c _ _ _ => some c
  | qdadd c _ _ _ => some c
  | qdsub c _ _ _ => some c
  | bx c _ => some c
  | blxReg c _ => some c
  | clz c _ _ => some c
  | mrs c _ _ => some c
  | msrReg c _ _ _ => some c
  | msrImm c _ _ _ _ => some c
  | movImm c _ _ _ _ => some c
  | movShiftImm c _ _ _ _ _ => some c
  | movShiftReg c _ _ _ _ _ => some c
  | addImm c _ _ _ _ _ => some c
  | addShiftImm c _ _ _ _ _ _ => some c
  | addShiftReg c _ _ _ _ _ _ => some c
  | subImm c _ _ _ _ _ => some c
  | subShiftImm c _ _ _ _ _ _ => some c
  | subShiftReg c _ _ _ _ _ _ => some c
  | orrImm c _ _ _ _ _ => some c
  | orrShiftImm c _ _ _ _ _ _ => some c
  | orrShiftReg c _ _ _ _ _ _ => some c

/-- An instruction some word encodes and no rule calls UNPREDICTABLE by its register fields alone. -/
def wellFormed (i : Instr) : Bool := i.encodable && i.predictable

end Instr

end Sys2Proof
end

