-- ==== Sys2Proof/Decode.lean ====
section
/-!
DEFINITION. Decoding an ARM-state instruction word (rules R140 to R159), in the order of rule R155, and after it the
encoder, which writes each row's `match` constant and adds the fields at their bit positions. The decoder is total:
a word no row of spec/opcode_table.json matches is answered with the name of the reason (`DecodeError`).
-/

namespace Sys2Proof

/-- Why a word is no instruction of this spec. Every one of these is refused, never an exception (rules R157, R310;
decision D2). -/
inductive DecodeError where
  /-- Fewer than four bytes were given. -/
  | truncated
  /-- The `cond = 0b1111` space other than PLD and BLX (rule R146, A57). -/
  | unconditionalSpace
  /-- opcode_3 is none of the six of rule R210: UNPREDICTABLE (rule R156 (a), A1). -/
  | unpredictableOpcode3
  /-- The `acc` field does not name acc0: UNPREDICTABLE (rule R156 (b), A2, A3). -/
  | unpredictableAccumulator
  /-- Bits 7:4 or bit 3 of the accumulator access format are not zero: reserved (rule R156 (c), A7). -/
  | reservedAccumulatorAccess
  /-- An MCR or MRC to coprocessor 0 that is not of the MIA shape (rule R156, A25). -/
  | otherCoprocessor0
  /-- An MCR or MRC to coprocessor 14 (rule R45, A26). -/
  | coprocessor14
  /-- An MCR or MRC to coprocessors 1 to 13 (table row MCR: no row). -/
  | otherCoprocessor
  /-- An MCR or MRC to coprocessor 15 with opcode_1 other than 0 (table row MCR: only 0 admitted). -/
  | coprocessor15Opcode1
  /-- A load or store form with P = 0 and W = 1: LDRT, STRT, or UNPREDICTABLE (rules R149, R310, A51). -/
  | userOrUnpredictableIndexing
  /-- LDRD or STRD with an odd Rd (rule R191, A52). -/
  | oddDoubleword
  /-- A field that should be zero, or one, is not (rules R152, R153). -/
  | fixedField
  /-- An instruction of ARM version 5TE this spec does not admit, or no instruction (rules R157, R275, R310). -/
  | notAdmitted
  deriving DecidableEq, Repr

/-! ## Fields -/

/-- Bits `lo + len - 1` to `lo` of an instruction word (rule R10). -/
def field (w : Word) (lo len : Nat) : BitVec len := w.extractLsb' lo len

/-- Bit `i` of an instruction word. -/
def flag (w : Word) (i : Nat) : Bool := w.getLsbD i

/-- The condition field's code (rule R28). -/
def Cond.toBits : Cond → BitVec 4
  | .eq => 0b0000
  | .ne => 0b0001
  | .cs => 0b0010
  | .cc => 0b0011
  | .mi => 0b0100
  | .pl => 0b0101
  | .vs => 0b0110
  | .vc => 0b0111
  | .hi => 0b1000
  | .ls => 0b1001
  | .ge => 0b1010
  | .lt => 0b1011
  | .gt => 0b1100
  | .le => 0b1101
  | .al => 0b1110

/-- The condition a code names; `0b1111` names none (rule R28). -/
def Cond.ofBits (b : BitVec 4) : Option Cond :=
  if b = 0b0000 then some .eq else if b = 0b0001 then some .ne
  else if b = 0b0010 then some .cs else if b = 0b0011 then some .cc
  else if b = 0b0100 then some .mi else if b = 0b0101 then some .pl
  else if b = 0b0110 then some .vs else if b = 0b0111 then some .vc
  else if b = 0b1000 then some .hi else if b = 0b1001 then some .ls
  else if b = 0b1010 then some .ge else if b = 0b1011 then some .lt
  else if b = 0b1100 then some .gt else if b = 0b1101 then some .le
  else if b = 0b1110 then some .al else none

/-- The shift field's code (rule R148). -/
def Shift.toBits : Shift → BitVec 2
  | .lsl => 0b00
  | .lsr => 0b01
  | .asr => 0b10
  | .ror => 0b11

/-- The shift kind of a code (rule R148). -/
def Shift.ofBits (b : BitVec 2) : Shift :=
  if b = 0b00 then .lsl else if b = 0b01 then .lsr else if b = 0b10 then .asr else .ror

/-- The P bit of an indexing form (rule R149). -/
def Index.p : Index → Bool
  | .offset => true
  | .preIndexed => true
  | .postIndexed => false

/-- The W bit of an indexing form (rule R149). -/
def Index.w : Index → Bool
  | .offset => false
  | .preIndexed => true
  | .postIndexed => false

/-- The indexing form of the P and W bits; P = 0 with W = 1 is not admitted (rule R149). -/
def Index.ofBits (p w : Bool) : Option Index :=
  match p, w with
  | true, false => some .offset
  | true, true => some .preIndexed
  | false, false => some .postIndexed
  | false, true => none

/-- The x or y bit of a half selector (rule R152). -/
def Half.toBit : Half → Bool
  | .bottom => false
  | .top => true

/-- The half an x or y bit selects (rule R152). -/
def Half.ofBit (b : Bool) : Half := if b then .top else .bottom

/-! ## The decoder, in the order of rule R155 -/

/-- Step 1: the unconditional space (rule R146). -/
def decodeUnconditional (w : Word) : Except DecodeError Instr :=
  if field w 26 2 = 0b01 ∧ flag w 24 = true ∧ field w 20 3 = 0b101 ∧ field w 12 4 = 0b1111 then
    if flag w 25 then
      if flag w 4 then .error .unconditionalSpace
      else .ok (.pldReg (flag w 23) (field w 16 4) (field w 7 5) (Shift.ofBits (field w 5 2)) (field w 0 4))
    else .ok (.pldImm (flag w 23) (field w 16 4) (field w 0 12))
  else if field w 25 3 = 0b101 then .ok (.blxImm (flag w 24) (field w 0 24))
  else .error .unconditionalSpace

/-- Step 2: the Multiply with Internal Accumulate format (rule R142). -/
def decodeAccumulate (c : Cond) (w : Word) : Except DecodeError Instr :=
  let rs := field w 12 4
  let rm := field w 0 4
  if field w 5 3 ≠ 0 then .error .unpredictableAccumulator
  else if field w 16 4 = 0b0000 then .ok (.mia c rs rm)
  else if field w 16 4 = 0b1000 then .ok (.miaph c rs rm)
  else if field w 16 4 = 0b1100 then .ok (.miabb c rs rm)
  else if field w 16 4 = 0b1101 then .ok (.miabt c rs rm)
  else if field w 16 4 = 0b1110 then .ok (.miatb c rs rm)
  else if field w 16 4 = 0b1111 then .ok (.miatt c rs rm)
  else .error .unpredictableOpcode3

/-- Steps 3 and 4: the two-register coprocessor transfers (rules R143, R145). -/
def decodeTwoRegister (c : Cond) (w : Word) : Except DecodeError Instr :=
  let hi := field w 16 4
  let lo := field w 12 4
  if field w 8 4 = 0 then
    if field w 3 5 ≠ 0 then .error .reservedAccumulatorAccess
    else if field w 0 3 ≠ 0 then .error .unpredictableAccumulator
    else if flag w 20 then .ok (.mra c hi lo)
    else .ok (.mar c hi lo)
  else if flag w 20 then .ok (.mrrc c hi lo (field w 8 4) (field w 4 4) (field w 0 4))
  else .ok (.mcrr c hi lo (field w 8 4) (field w 4 4) (field w 0 4))

/-- Step 5: the coprocessor register transfers other than the MIA shape (rule R144). -/
def decodeRegisterTransfer (c : Cond) (w : Word) : Except DecodeError Instr :=
  if field w 8 4 = 15 then
    if field w 21 3 ≠ 0 then .error .coprocessor15Opcode1
    else if flag w 20 then .ok (.mrc c (field w 16 4) (field w 12 4) (field w 5 3) (field w 0 4))
    else .ok (.mcr c (field w 16 4) (field w 12 4) (field w 5 3) (field w 0 4))
  else if field w 8 4 = 14 then .error .coprocessor14
  else if field w 8 4 = 0 then .error .otherCoprocessor0
  else .error .otherCoprocessor

/-- Step 8: word loads and stores (rule R149). Byte forms (B = 1) are not admitted (rule R310). -/
def decodeWordTransfer (c : Cond) (w : Word) : Except DecodeError Instr :=
  if flag w 22 then .error .notAdmitted
  else
    match Index.ofBits (flag w 24) (flag w 21) with
    | none => .error .userOrUnpredictableIndexing
    | some m =>
      let u := flag w 23
      let rn := field w 16 4
      let rd := field w 12 4
      if flag w 25 then
        if flag w 4 then .error .notAdmitted
        else
          let sh := Shift.ofBits (field w 5 2)
          if flag w 20 then .ok (.ldrReg c m u rn rd (field w 7 5) sh (field w 0 4))
          else .ok (.strReg c m u rn rd (field w 7 5) sh (field w 0 4))
      else if flag w 20 then .ok (.ldrImm c m u rn rd (field w 0 12))
      else .ok (.strImm c m u rn rd (field w 0 12))

/-- Step 9, `w[6:5] = 0b00`: MLA, SWP and SWPB (rules R152, R153). -/
def decodeMultiplySwap (c : Cond) (w : Word) : Except DecodeError Instr :=
  if field w 22 6 = 0 then
    if flag w 21 then
      .ok (.mla c (flag w 20) (field w 16 4) (field w 12 4) (field w 8 4) (field w 0 4))
    else .error .notAdmitted
  else if field w 23 5 = 0b00010 ∧ field w 20 2 = 0 then
    if field w 8 4 ≠ 0 then .error .fixedField
    else if flag w 22 then .ok (.swpb c (field w 16 4) (field w 12 4) (field w 0 4))
    else .ok (.swp c (field w 16 4) (field w 12 4) (field w 0 4))
  else .error .notAdmitted

/-- Step 9, `w[6:5]` not `0b00`: LDRSH, LDRD, STRD (rule R149); STRH, LDRH and LDRSB are not admitted (rule R310). -/
def decodeExtraTransfer (c : Cond) (w : Word) : Except DecodeError Instr :=
  match Index.ofBits (flag w 24) (flag w 21) with
  | none => .error .userOrUnpredictableIndexing
  | some m =>
    let u := flag w 23
    let rn := field w 16 4
    let rd := field w 12 4
    let rm := field w 0 4
    let off := BitVec.ofNat 8 ((field w 8 4).toNat * 16 + (field w 0 4).toNat)
    if flag w 20 then
      if field w 5 2 = 0b11 then
        if flag w 22 then .ok (.ldrshImm c m u rn rd off)
        else if field w 8 4 ≠ 0 then .error .fixedField
        else .ok (.ldrshReg c m u rn rd rm)
      else .error .notAdmitted
    else if field w 5 2 = 0b01 then .error .notAdmitted
    else if flag w 12 then .error .oddDoubleword
    else if flag w 5 then
      if flag w 22 then .ok (.strdImm c m u rn rd off)
      else if field w 8 4 ≠ 0 then .error .fixedField
      else .ok (.strdReg c m u rn rd rm)
    else if flag w 22 then .ok (.ldrdImm c m u rn rd off)
    else if field w 8 4 ≠ 0 then .error .fixedField
    else .ok (.ldrdReg c m u rn rd rm)

/-- Step 10, `w[7] = 1`, `w[4] = 0`: the signed 16-bit multiplies (rule R152). -/
def decodeHalfMultiply (c : Cond) (w : Word) : Except DecodeError Instr :=
  let a := field w 16 4
  let b := field w 12 4
  let rs := field w 8 4
  let y := Half.ofBit (flag w 6)
  let x := Half.ofBit (flag w 5)
  let rm := field w 0 4
  if field w 21 2 = 0b00 then .ok (.smla c a b rs y x rm)
  else if field w 21 2 = 0b10 then .ok (.smlal c a b rs y x rm)
  else if field w 21 2 = 0b11 then
    if b ≠ 0 then .error .fixedField else .ok (.smul c a rs y x rm)
  else if flag w 5 then
    if b ≠ 0 then .error .fixedField else .ok (.smulw c a rs y rm)
  else .ok (.smlaw c a b rs y rm)

/-- Step 10, the other miscellaneous instructions (rules R152, R153). -/
def decodeMiscellaneous (c : Cond) (w : Word) : Except DecodeError Instr :=
  let hi := field w 16 4
  let mid := field w 12 4
  let low := field w 8 4
  let rm := field w 0 4
  if field w 4 4 = 0b0101 then
    if low ≠ 0 then .error .fixedField
    else if field w 21 2 = 0b00 then .ok (.qadd c hi mid rm)
    else if field w 21 2 = 0b01 then .ok (.qsub c hi mid rm)
    else if field w 21 2 = 0b10 then .ok (.qdadd c hi mid rm)
    else .ok (.qdsub c hi mid rm)
  else if field w 4 4 = 0b0001 then
    if field w 21 2 = 0b01 then
      if field w 8 12 = 0xFFF then .ok (.bx c rm) else .error .fixedField
    else if field w 21 2 = 0b11 then
      if hi = 0xF ∧ low = 0xF then .ok (.clz c mid rm) else .error .fixedField
    else .error .notAdmitted
  else if field w 4 4 = 0b0011 then
    if field w 21 2 = 0b01 then
      if field w 8 12 = 0xFFF then .ok (.blxReg c rm) else .error .fixedField
    else .error .notAdmitted
  else if field w 4 4 = 0b0000 then
    if flag w 21 then
      if mid = 0xF ∧ low = 0 then .ok (.msrReg c (flag w 22) hi rm) else .error .fixedField
    else if hi = 0xF ∧ field w 0 12 = 0 then .ok (.mrs c (flag w 22) mid)
    else .error .fixedField
  else .error .notAdmitted

/-- Step 11: MSR with an immediate (rule R153). -/
def decodeMsrImmediate (c : Cond) (w : Word) : Except DecodeError Instr :=
  if field w 12 4 = 0xF then .ok (.msrImm c (flag w 22) (field w 16 4) (field w 8 4) (field w 0 8))
  else .error .fixedField

/-- Step 12: the four admitted data-processing opcodes (rules R147, R275). -/
def decodeDataProcessing (c : Cond) (w : Word) : Except DecodeError Instr :=
  let op := field w 21 4
  let s := flag w 20
  let rn := field w 16 4
  let rd := field w 12 4
  let rm := field w 0 4
  let sh := Shift.ofBits (field w 5 2)
  if flag w 25 then
    if op = 0b1101 then
      if rn = 0 then .ok (.movImm c s rd (field w 8 4) (field w 0 8)) else .error .fixedField
    else if op = 0b0100 then .ok (.addImm c s rn rd (field w 8 4) (field w 0 8))
    else if op = 0b0010 then .ok (.subImm c s rn rd (field w 8 4) (field w 0 8))
    else if op = 0b1100 then .ok (.orrImm c s rn rd (field w 8 4) (field w 0 8))
    else .error .notAdmitted
  else if flag w 4 then
    if op = 0b1101 then
      if rn = 0 then .ok (.movShiftReg c s rd (field w 8 4) sh rm) else .error .fixedField
    else if op = 0b0100 then .ok (.addShiftReg c s rn rd (field w 8 4) sh rm)
    else if op = 0b0010 then .ok (.subShiftReg c s rn rd (field w 8 4) sh rm)
    else if op = 0b1100 then .ok (.orrShiftReg c s rn rd (field w 8 4) sh rm)
    else .error .notAdmitted
  else if op = 0b1101 then
    if rn = 0 then .ok (.movShiftImm c s rd (field w 7 5) sh rm) else .error .fixedField
  else if op = 0b0100 then .ok (.addShiftImm c s rn rd (field w 7 5) sh rm)
  else if op = 0b0010 then .ok (.subShiftImm c s rn rd (field w 7 5) sh rm)
  else if op = 0b1100 then .ok (.orrShiftImm c s rn rd (field w 7 5) sh rm)
  else .error .notAdmitted

/-- Steps 2 to 13: the conditional space (rule R155). -/
def decodeConditional (c : Cond) (w : Word) : Except DecodeError Instr :=
  if field w 20 8 = 0b11100010 ∧ field w 8 4 = 0 ∧ flag w 4 = true then decodeAccumulate c w
  else if field w 21 7 = 0b1100010 then decodeTwoRegister c w
  else if field w 24 4 = 0b1110 ∧ flag w 4 = true then decodeRegisterTransfer c w
  else if field w 25 3 = 0b101 then
    if flag w 24 then .ok (.bl c (field w 0 24)) else .ok (.b c (field w 0 24))
  else if field w 24 4 = 0b1111 then .ok (.swi c (field w 0 24))
  else if field w 26 2 = 0b01 then decodeWordTransfer c w
  else if field w 25 3 = 0b000 ∧ flag w 7 = true ∧ flag w 4 = true then
    if field w 5 2 = 0b00 then decodeMultiplySwap c w else decodeExtraTransfer c w
  else if field w 23 5 = 0b00010 ∧ flag w 20 = false then
    if flag w 7 = true ∧ flag w 4 = false then decodeHalfMultiply c w else decodeMiscellaneous c w
  else if field w 23 5 = 0b00110 ∧ field w 20 2 = 0b10 then decodeMsrImmediate c w
  else if field w 26 2 = 0b00 then decodeDataProcessing c w
  else .error .notAdmitted

/-- The instruction an ARM-state word stands for, or the name of the reason it stands for none (rule R155). -/
def decodeWord (w : Word) : Except DecodeError Instr :=
  match Cond.ofBits (field w 28 4) with
  | none => decodeUnconditional w
  | some c => decodeConditional c w

/-! ## Bytes -/

/-- The word of four bytes, the first at the lowest address: the least significant lane (rules R72, R73; the fetch
is a word access and does not depend on the B bit). -/
def wordOfBytes (b0 b1 b2 b3 : Byte) : Word := b3 ++ b2 ++ b1 ++ b0

/-- The instruction at the head of a list of bytes, with the bytes after it. -/
def decodeBytes : List Byte → Except DecodeError (Instr × List Byte)
  | b0 :: b1 :: b2 :: b3 :: rest =>
    match decodeWord (wordOfBytes b0 b1 b2 b3) with
    | .ok i => .ok (i, rest)
    | .error e => .error e
  | _ => .error .truncated

/-- The instruction the decoder reads from a row's word `w` of `nbits` bits, bit 0 the least significant; the bits
above `nbits` are zero. Every instruction is one 32-bit word (rule R140). -/
def decodeTableWord (nbits w : Nat) : Option Instr :=
  let v : Word := BitVec.ofNat 32 (w % 2 ^ nbits)
  match decodeBytes [v.extractLsb' 0 8, v.extractLsb' 8 8, v.extractLsb' 16 8, v.extractLsb' 24 8] with
  | .ok (i, _) => some i
  | .error _ => none

/-! ## The encoder -/

/-- A field's contribution to an instruction word: its value at bit position `lo`. -/
def put {n : Nat} (v : BitVec n) (lo : Nat) : Nat := v.toNat * 2 ^ lo

/-- A one-bit field's contribution to an instruction word. -/
def putBit (b : Bool) (i : Nat) : Nat := b.toNat * 2 ^ i

/-- The condition, P, U, W, Rn and Rd fields shared by the load and store formats (rule R149). -/
def putTransfer (c : Cond) (m : Index) (u : Bool) (rn rd : Reg) : Nat :=
  put c.toBits 28 + putBit m.p 24 + putBit u 23 + putBit m.w 21 + put rn 16 + put rd 12

/-- The shift_imm, shift and Rm fields shared by the scaled and shifted register forms (rules R147, R149). -/
def putShiftImm (n : BitVec 5) (sh : Shift) (rm : Reg) : Nat := put n 7 + put sh.toBits 5 + put rm 0

/-- The Rs, shift and Rm fields of a register shifted by a register (rule R147). -/
def putShiftReg (rs : Reg) (sh : Shift) (rm : Reg) : Nat := put rs 8 + put sh.toBits 5 + put rm 0

/-- The two nibbles of an 8-bit offset, immedH in bits 11:8 and immedL in bits 3:0 (rule R149). -/
def putSplit (off : BitVec 8) : Nat := off.toNat / 16 * 2 ^ 8 + off.toNat % 16

/-- The word of an instruction as a number: the row's `match` constant plus its fields (spec/opcode_table.json). -/
def Instr.code : Instr → Nat
  | .pldImm u rn off => 0xF550F000 + putBit u 23 + put rn 16 + put off 0
  | .pldReg u rn n sh rm => 0xF750F000 + putBit u 23 + put rn 16 + putShiftImm n sh rm
  | .blxImm h imm => 0xFA000000 + putBit h 24 + put imm 0
  | .mia c rs rm => 0x0E200010 + put c.toBits 28 + put rs 12 + put rm 0
  | .miaph c rs rm => 0x0E280010 + put c.toBits 28 + put rs 12 + put rm 0
  | .miabb c rs rm => 0x0E2C0010 + put c.toBits 28 + put rs 12 + put rm 0
  | .miabt c rs rm => 0x0E2D0010 + put c.toBits 28 + put rs 12 + put rm 0
  | .miatb c rs rm => 0x0E2E0010 + put c.toBits 28 + put rs 12 + put rm 0
  | .miatt c rs rm => 0x0E2F0010 + put c.toBits 28 + put rs 12 + put rm 0
  | .mar c hi lo => 0x0C400000 + put c.toBits 28 + put hi 16 + put lo 12
  | .mra c hi lo => 0x0C500000 + put c.toBits 28 + put hi 16 + put lo 12
  | .mcrr c rn rd cp op crm =>
    0x0C400000 + put c.toBits 28 + put rn 16 + put rd 12 + put cp 8 + put op 4 + put crm 0
  | .mrrc c rn rd cp op crm =>
    0x0C500000 + put c.toBits 28 + put rn 16 + put rd 12 + put cp 8 + put op 4 + put crm 0
  | .mcr c crn rd op2 crm => 0x0E000F10 + put c.toBits 28 + put crn 16 + put rd 12 + put op2 5 + put crm 0
  | .mrc c crn rd op2 crm => 0x0E100F10 + put c.toBits 28 + put crn 16 + put rd 12 + put op2 5 + put crm 0
  | .b c imm => 0x0A000000 + put c.toBits 28 + put imm 0
  | .bl c imm => 0x0B000000 + put c.toBits 28 + put imm 0
  | .swi c imm => 0x0F000000 + put c.toBits 28 + put imm 0
  | .ldrImm c m u rn rd off => 0x04100000 + putTransfer c m u rn rd + put off 0
  | .ldrReg c m u rn rd n sh rm => 0x06100000 + putTransfer c m u rn rd + putShiftImm n sh rm
  | .strImm c m u rn rd off => 0x04000000 + putTransfer c m u rn rd + put off 0
  | .strReg c m u rn rd n sh rm => 0x06000000 + putTransfer c m u rn rd + putShiftImm n sh rm
  | .mla c s rd rn rs rm =>
    0x00200090 + put c.toBits 28 + putBit s 20 + put rd 16 + put rn 12 + put rs 8 + put rm 0
  | .swp c rn rd rm => 0x01000090 + put c.toBits 28 + put rn 16 + put rd 12 + put rm 0
  | .swpb c rn rd rm => 0x01400090 + put c.toBits 28 + put rn 16 + put rd 12 + put rm 0
  | .ldrshImm c m u rn rd off => 0x005000F0 + putTransfer c m u rn rd + putSplit off
  | .ldrshReg c m u rn rd rm => 0x001000F0 + putTransfer c m u rn rd + put rm 0
  | .ldrdImm c m u rn rd off => 0x004000D0 + putTransfer c m u rn rd + putSplit off
  | .ldrdReg c m u rn rd rm => 0x000000D0 + putTransfer c m u rn rd + put rm 0
  | .strdImm c m u rn rd off => 0x004000F0 + putTransfer c m u rn rd + putSplit off
  | .strdReg c m u rn rd rm => 0x000000F0 + putTransfer c m u rn rd + put rm 0
  | .smla c rd rn rs y x rm =>
    0x01000080 + put c.toBits 28 + put rd 16 + put rn 12 + put rs 8 + putBit y.toBit 6 + putBit x.toBit 5 + put rm 0
  | .smlaw c rd rn rs y rm =>
    0x01200080 + put c.toBits 28 + put rd 16 + put rn 12 + put rs 8 + putBit y.toBit 6 + put rm 0
  | .smulw c rd rs y rm => 0x012000A0 + put c.toBits 28 + put rd 16 + put rs 8 + putBit y.toBit 6 + put rm 0
  | .smlal c hi lo rs y x rm =>
    0x01400080 + put c.toBits 28 + put hi 16 + put lo 12 + put rs 8 + putBit y.toBit 6 + putBit x.toBit 5 + put rm 0
  | .smul c rd rs y x rm =>
    0x01600080 + put c.toBits 28 + put rd 16 + put rs 8 + putBit y.toBit 6 + putBit x.toBit 5 + put rm 0
  | .qadd c rn rd rm => 0x01000050 + put c.toBits 28 + put rn 16 + put rd 12 + put rm 0
  | .qsub c rn rd rm => 0x01200050 + put c.toBits 28 + put rn 16 + put rd 12 + put rm 0
  | .qdadd c rn rd rm => 0x01400050 + put c.toBits 28 + put rn 16 + put rd 12 + put rm 0
  | .qdsub c rn rd rm => 0x01600050 + put c.toBits 28 + put rn 16 + put rd 12 + put rm 0
  | .bx c rm => 0x012FFF10 + put c.toBits 28 + put rm 0
  | .blxReg c rm => 0x012FFF30 + put c.toBits 28 + put rm 0
  | .clz c rd rm => 0x016F0F10 + put c.toBits 28 + put rd 12 + put rm 0
  | .mrs c r rd => 0x010F0000 + put c.toBits 28 + putBit r 22 + put rd 12
  | .msrReg c r mask rm => 0x0120F000 + put c.toBits 28 + putBit r 22 + put mask 16 + put rm 0
  | .msrImm c r mask rot imm =>
    0x0320F000 + put c.toBits 28 + putBit r 22 + put mask 16 + put rot 8 + put imm 0
  | .movImm c s rd rot imm => 0x03A00000 + put c.toBits 28 + putBit s 20 + put rd 12 + put rot 8 + put imm 0
  | .movShiftImm c s rd n sh rm => 0x01A00000 + put c.toBits 28 + putBit s 20 + put rd 12 + putShiftImm n sh rm
  | .movShiftReg c s rd rs sh rm => 0x01A00010 + put c.toBits 28 + putBit s 20 + put rd 12 + putShiftReg rs sh rm
  | .addImm c s rn rd rot imm =>
    0x02800000 + put c.toBits 28 + putBit s 20 + put rn 16 + put rd 12 + put rot 8 + put imm 0
  | .addShiftImm c s rn rd n sh rm =>
    0x00800000 + put c.toBits 28 + putBit s 20 + put rn 16 + put rd 12 + putShiftImm n sh rm
  | .addShiftReg c s rn rd rs sh rm =>
    0x00800010 + put c.toBits 28 + putBit s 20 + put rn 16 + put rd 12 + putShiftReg rs sh rm
  | .subImm c s rn rd rot imm =>
    0x02400000 + put c.toBits 28 + putBit s 20 + put rn 16 + put rd 12 + put rot 8 + put imm 0
  | .subShiftImm c s rn rd n sh rm =>
    0x00400000 + put c.toBits 28 + putBit s 20 + put rn 16 + put rd 12 + putShiftImm n sh rm
  | .subShiftReg c s rn rd rs sh rm =>
    0x00400010 + put c.toBits 28 + putBit s 20 + put rn 16 + put rd 12 + putShiftReg rs sh rm
  | .orrImm c s rn rd rot imm =>
    0x03800000 + put c.toBits 28 + putBit s 20 + put rn 16 + put rd 12 + put rot 8 + put imm 0
  | .orrShiftImm c s rn rd n sh rm =>
    0x01800000 + put c.toBits 28 + putBit s 20 + put rn 16 + put rd 12 + putShiftImm n sh rm
  | .orrShiftReg c s rn rd rs sh rm =>
    0x01800010 + put c.toBits 28 + putBit s 20 + put rn 16 + put rd 12 + putShiftReg rs sh rm

/-- The word of an instruction. -/
def encode (i : Instr) : Word := BitVec.ofNat 32 i.code

end Sys2Proof
end

