-- ==== Sys2Proof/Machine/State.lean ====
section
/-!
DEFINITION. The state of the machine, its faults and its refusals, as plain data, and the state right after reset.
Every operation on them stands in the other files of this folder.
-/

namespace Sys2Proof.Machine

/-! ## Coprocessor 15 -/

/-- The CP15 storage registers whose value a fetch, a data access, an exception entry or a coprocessor 0 check
depends on. The state holds two of these: what MRC reads, and what is in effect (rules R256, R258). -/
structure Cp15 where
  /-- Control Register (rules R32 to R35): M 0, A 1, C 2, bits 6:3 one, B 7, S 8, R 9, Z 11, I 12, V 13. -/
  control : Word
  /-- Auxiliary Control Register (rules R36, R37): K 0, P 1, MD 5:4. -/
  auxControl : Word
  /-- Register 2, the translation table base (rule R41). -/
  ttb : Word
  /-- Register 3, the domain access control (rules R44, R98). -/
  dacr : Word
  /-- Register 13, the process ID (rule R43). -/
  pid : Word
  /-- Register 15, the Coprocessor Access Register (rule R40). -/
  cpar : Word
  deriving DecidableEq, Repr

/-- What one TLB entry maps (rules R90 to R93): 1 Mbyte, 64 Kbytes, 4 Kbytes or 1 Kbyte. -/
inductive PageSize where
  | section1M | large64K | small4K | tiny1K
  deriving DecidableEq, Repr

/-- The memory attributes of a region (rules R94, R95, R100). -/
structure Attributes where
  x : Bool
  c : Bool
  b : Bool
  p : Bool
  deriving DecidableEq, Repr

/-- One TLB entry (rule R50). -/
structure TlbEntry where
  valid : Bool
  /-- Locked and valid are two separate bits (rule R53). -/
  locked : Bool
  /-- The modified virtual address of the first byte mapped. -/
  tag : Word
  size : PageSize
  /-- The physical address of the first byte mapped. -/
  base : Word
  /-- Four access permission fields, AP0 in bits 1:0 (rule R92); a mapping with one AP field holds it four times. -/
  aps : BitVec 8
  domain : BitVec 4
  attributes : Attributes
  deriving DecidableEq, Repr

/-- One translation look-aside buffer (rules R50 to R52). -/
structure Tlb where
  entries : Vector TlbEntry 32
  /-- The entry the next lock operation fills (rule R51). -/
  lockPtr : Fin 32
  /-- The entry the next table walk replaces (rule R52). -/
  rrPtr : Fin 32
  deriving DecidableEq, Repr

/-- Which of the two TLBs. -/
inductive Side where
  | instruction | data
  deriving DecidableEq, Repr

/-- A CP15 write or function issued and not yet in effect on fetches and data accesses (rules R256, R258). -/
inductive Cp15Effect where
  | setControl (v : Word)
  | setAuxControl (v : Word)
  | setTtb (v : Word)
  | setDacr (v : Word)
  | setPid (v : Word)
  | setCpar (v : Word)
  /-- Invalidate both TLBs with one command (rules R120, R252). -/
  | invalidateBoth
  /-- Invalidate a whole TLB (rules R247, R252). -/
  | invalidate (t : Side)
  /-- Invalidate the entry of a TLB that maps a modified virtual address (rules R248, R252). -/
  | invalidateEntry (t : Side) (mva : Word)
  /-- Place and lock the translation that the walk of a lock function found for a modified virtual address
  (rules R249, R250). -/
  | lock (t : Side) (mva : Word) (e : TlbEntry)
  /-- Place the translation that the walk of an instruction cache line's lock found for a modified virtual address,
  unless one is resident by then (rules R127, R131, log 14). -/
  | fill (t : Side) (mva : Word) (e : TlbEntry)
  /-- Unlock a TLB (rule R252). -/
  | unlock (t : Side)
  deriving DecidableEq, Repr

/-- How many of CPWAIT's three instructions (rule R255) have just been executed. The model's own (log 8). -/
inductive CpwaitStage where
  | idle | afterMrc | afterMov
  deriving DecidableEq, Repr

/-! ## Aborts owed, and the environment -/

/-- The two causes of an imprecise data abort (rule R352). -/
inductive ImpreciseCause where
  | external | parity
  deriving DecidableEq, Repr

/-- An imprecise data abort the core owes (rule R58). -/
structure OwedAbort where
  cause : ImpreciseCause
  /-- For a stall-until-complete access: how many further instructions may begin before the report (rule R354). -/
  deadline : Option Nat
  deriving DecidableEq, Repr

/-- The level of a table walk at which an external abort strikes (rule R350). -/
inductive WalkLevel where
  | first | second
  deriving DecidableEq, Repr

/-- What the world outside the core chooses for one step: interrupt lines (rule R358, D24), aborts and parity errors
(D23), the landing of CP15 writes (D10), and two choices the spec leaves to nobody (D15, rule R197). Log 5. -/
structure Env where
  /-- The FIQ line is asserted. -/
  fiq : Bool
  /-- The IRQ line is asserted. -/
  irq : Bool
  /-- How many pending CP15 effects land before this step (rule R258). -/
  land : Nat
  /-- An owed imprecise abort, if there is one, is reported before this step (rule R352). -/
  deliver : Bool
  /-- The external memory system reports an error on the instruction fetch (rule R341). -/
  fetchError : Bool
  /-- The instruction cache reports a parity error on the fetch (rule R342). -/
  fetchParity : Bool
  /-- The table walk of the instruction fetch suffers an external abort (rule R96). -/
  fetchWalkAbort : Option WalkLevel
  /-- What a fetch of a word the program has stored to reads, where it is not what memory holds (rule R116). -/
  staleFetch : Option Word
  /-- The external memory system reports an error on the data access (rule R352). -/
  dataError : Bool
  /-- The data cache reports a parity error on the load (rule R353). -/
  dataParity : Bool
  /-- The table walk of the data access or of the lock function suffers an external abort (rules R346, R350). -/
  dataWalkAbort : Option WalkLevel
  /-- A PLD loads the data TLB with its translation (rules R196, R197). -/
  pldFills : Bool
  deriving DecidableEq, Repr

/-- The environment in which nothing happens: no interrupt, no abort, no parity error, nothing lands. -/
def Env.quiet : Env where
  fiq := false
  irq := false
  land := 0
  deliver := false
  fetchError := false
  fetchParity := false
  fetchWalkAbort := none
  staleFetch := none
  dataError := false
  dataParity := false
  dataWalkAbort := none
  pldFills := false

/-! ## The machine -/

/-- The whole state: every piece of state the spec gives the machine, and the model's own bookkeeping. -/
structure State where
  /-- The general registers, banked (rule R21): 0 to 7 R0 to R7; 8 to 12 R8 to R12 of every mode but FIQ; 13 and 14
  R13 and R14 of User and System; 15 to 21 R8 to R14 of FIQ; 22, 23 of IRQ; 24, 25 of Supervisor; 26, 27 of Abort;
  28, 29 of Undefined. -/
  gpr : Vector Word 30
  /-- R15, the address of the instruction to execute (rule R25). -/
  pc : Word
  /-- The current program status register (rule R27). -/
  cpsr : Word
  spsrFiq : Word
  spsrIrq : Word
  spsrSvc : Word
  spsrAbt : Word
  spsrUnd : Word
  /-- The accumulator of coprocessor 0 (rule R30). -/
  acc0 : Acc
  /-- CP15 registers in program order: what MRC reads (rules R114, R401). -/
  cp15 : Cp15
  /-- CP15 registers in effect on fetches, data accesses and coprocessor checks (rules R256, R258). -/
  eff : Cp15
  /-- Fault Status Register (rule R38). -/
  fsr : Word
  /-- Fault Address Register (rule R39). -/
  far : Word
  /-- Data cache lock mode register (rule R253). -/
  dcacheLock : Word
  /-- CP15 writes and functions not yet in effect, oldest first. -/
  pending : List Cp15Effect
  cpwait : CpwaitStage
  /-- The instruction TLB. -/
  itlb : Tlb
  /-- The data TLB. -/
  dtlb : Tlb
  /-- Physical memory in canonical form: addresses strictly rising, no byte equal to what an unlisted address reads
  as. -/
  mem : List Host.Cell
  /-- The model's own: the addresses of the words stored to since reset (rule R116, log 25). -/
  stored : List Nat
  /-- The model's own: a store has gone to a write-back region of an enabled cache (rule R104, log 26). -/
  dirty : Bool
  /-- The model's own: a byte or halfword access has been performed since reset (rules R71, R409, log 29). -/
  subWord : Bool
  /-- Imprecise aborts owed, oldest first (rule R58). -/
  owed : List OwedAbort
  /-- The environment's choices, one for each step to come (log 5). -/
  env : List Env
  /-- The model's own: the number of steps taken (log 19). -/
  tick : Nat
  /-- The model's own: the last instruction advanced past address `0xFFFFFFFC` (D7, log 18). -/
  pastTop : Bool
  deriving DecidableEq, Repr

/-- Why the machine stops with a fault. -/
inductive Fault where
  /-- Raised by a step whose instruction address would lie above `0xFFFFFFFC` (rule R25, D7). Safe: the spec gives
  such a run no meaning. -/
  | runsPastTop
  /-- Raised by a load, store or swap of several bytes whose last byte would lie above `0xFFFFFFFF` (D7, A30). Safe:
  the spec gives such an access no meaning. -/
  | accessWraps
  deriving DecidableEq, Repr

/-- Why the machine refuses a step. -/
inductive Refusal where
  /-- Raised by an arm of `exec` for an instruction without a meaning; no arm answers it. Safe. -/
  | notModelled (mnemonic : String)
  /-- Raised by a step whose word no row of the opcode table matches (rules R157, R310, D2). Safe. -/
  | undecodable (e : DecodeError)
  /-- Raised by a step in Thumb state, which the spec does not describe (rule R26, D3). Safe. -/
  | thumbState
  /-- Raised by an instruction whose register fields the spec calls UNPREDICTABLE (93_implementation_defined.md A4 to
  A6, A45 to A50, A52, A55, A60). Safe. -/
  | unpredictableRegisters
  /-- Raised by MSR, an exception return or a step whose mode number is none of the seven (rule R27, A40). Safe. -/
  | unpredictableMode
  /-- Raised by an MSR that would change the T bit (rule R307, A42). Safe. -/
  | unpredictableTChange
  /-- Raised by a read or write of the SPSR in User or System mode (rule R29, A41, A44). Safe. -/
  | noSpsr
  /-- Raised by a write of R15 with an address the spec calls UNPREDICTABLE (rule R300, A43, A58). Safe. -/
  | unalignedBranch
  /-- Raised by a misaligned load, store or swap with alignment checking off, to which the spec gives no meaning (rule
  R78, D5, A28, A54). Safe. -/
  | misalignedAccess
  /-- Raised by MCR or MRC with a triple the spec gives no register and no function (rule R241, D11, A26). Safe. -/
  | cp15Unlisted
  /-- Raised by an MCR that would enable the data cache with the MMU off: UNDEFINED RESULT (rule R88, A9). Safe. -/
  | illegalCacheEnable
  /-- Raised by an MCR that changes the B bit after a byte or halfword access: UNDEFINED RESULT (rules R71, R394, R409,
  A8). Safe. -/
  | byteOrderChange
  /-- Raised when a lock function takes effect and finds its translation resident: UNPREDICTABLE (rule R123, A11).
  Safe. -/
  | lockResident
  /-- Raised by a translate-and-lock function with the MMU off: "a model requires the MMU enabled" (N10 of
  91_not_in_source.md; rules R86, R249, R348). Safe. -/
  | lockMmuOff
  /-- Raised by an access through a domain whose access value is `0b10` (rule R98, A56). Safe. -/
  | reservedDomain
  /-- Raised by an access checked against AP = `0b00` with S = R = 1 (rule R98, A56). Safe. -/
  | unpredictableAp
  /-- Raised by a data access with X = 1, C = 0, B = 0 (rule R102, A10), or to a mini-data cache region with
  MD = `0b11` (rule R37). Safe. -/
  | unpredictableAttributes
  /-- Raised by the MCR that allocates a data cache line, which would make data cache memory a state of its own
  (rule R253, D11). Safe. -/
  | cacheAllocate
  /-- Raised by an MCR that would discard data cache lines not yet written to memory (rules R104, R253, D11). Safe. -/
  | discardsDirtyData
  deriving DecidableEq, Repr

/-- An invalid TLB entry (rule R60: all invalid, none locked). -/
def TlbEntry.empty : TlbEntry where
  valid := false
  locked := false
  tag := 0
  size := .section1M
  base := 0
  aps := 0
  domain := 0
  attributes := ⟨false, false, false, false⟩

/-- A TLB after reset: lock pointer 0, round-robin pointer 31 (rule R392), no entry valid (PRESUMED, log 2). -/
def Tlb.reset : Tlb where
  entries := Vector.replicate 32 TlbEntry.empty
  lockPtr := 0
  rrPtr := 31

/-- The CP15 registers after reset: the family's values where rule R60's last column has them (PRESUMED, log 2), else
zero (DESIGN CHOICE, log 1). -/
def Cp15.reset : Cp15 where
  control := 0x00000078
  auxControl := 0
  ttb := 0
  dacr := 0
  pid := 0
  cpar := 0

/-- The machine right after reset (rules R60, R391, R392; logs 1 and 2). -/
def State.reset : State where
  gpr := Vector.replicate 30 0
  pc := 0
  cpsr := 0x000000D3
  spsrFiq := 0
  spsrIrq := 0
  spsrSvc := 0
  spsrAbt := 0
  spsrUnd := 0
  acc0 := 0
  cp15 := Cp15.reset
  eff := Cp15.reset
  fsr := 0
  far := 0
  dcacheLock := 0
  pending := []
  cpwait := .idle
  itlb := Tlb.reset
  dtlb := Tlb.reset
  mem := []
  stored := []
  dirty := false
  subWord := false
  owed := []
  env := []
  tick := 0
  pastTop := false

end Sys2Proof.Machine
end

