-- ==== Sys2Proof/Machine/Bits.lean ====
section
/-!
DEFINITION. Helpers over bit vectors: halves, signed values, saturation, leading zeros, byte lanes (rules R10 to R12).
-/

namespace Sys2Proof.Machine

/-- `half(R, s)`: bits 15:0 or bits 31:16 of a register (rules R152, R181, R218). -/
def halfOf (h : Half) (w : Word) : BitVec 16 :=
  match h with
  | .bottom => w.extractLsb' 0 16
  | .top => w.extractLsb' 16 16

/-- The signed product of two 16-bit halves, exact (rule R12). -/
def halfProduct (x : Half) (rm : Word) (y : Half) (rs : Word) : Int :=
  (halfOf x rm).toInt * (halfOf y rs).toInt

/-- The signed product of a word and a half, exact. -/
def wordHalfProduct (rm : Word) (y : Half) (rs : Word) : Int := rm.toInt * (halfOf y rs).toInt

/-- The least value of a signed 32-bit word. -/
def minInt32 : Int := -2147483648

/-- The greatest value of a signed 32-bit word. -/
def maxInt32 : Int := 2147483647

/-- Whether an integer is the value of a signed 32-bit word. -/
def fits32 (i : Int) : Bool := decide (minInt32 ≤ i) && decide (i ≤ maxInt32)

/-- `sat32`: an integer clamped to the signed 32-bit range (rule R11). -/
def sat32 (i : Int) : Int := if i < minInt32 then minInt32 else if maxInt32 < i then maxInt32 else i

/-- The leading zeros of the low `n` bits of a word, those above being zero, plus 32 - n (rule R304). -/
def leadingZerosBelow : Nat → Word → Nat
  | 0, _ => 32
  | n + 1, w => if w.getLsbD n then 31 - n else leadingZerosBelow n w

/-- The number of leading zeros of a word: 32 for zero (rule R304). -/
def leadingZeros (w : Word) : Nat := leadingZerosBelow 32 w

/-- Byte number `k` of a word, byte 0 the least significant (rule R72). -/
def byteOfWord (w : Word) (k : Nat) : Byte := w.extractLsb' (8 * k) 8

/-- The bytes of a word in little-endian lane order (rule R72). -/
def bytesOfWord (w : Word) : List Byte := [byteOfWord w 0, byteOfWord w 1, byteOfWord w 2, byteOfWord w 3]

/-- The low bits of a word replaced by those of another wherever a mask has a 1. -/
def mergeMask (mask old new : Word) : Word := (old &&& ~~~mask) ||| (new &&& mask)

/-- A one-bit flag at a position of a word. -/
def bitAt (b : Bool) (i : Nat) : Word := (if b then 1#32 else 0#32) <<< i

/-- A word rounded down to a multiple of 4. -/
def wordAlign (a : Word) : Word := a &&& 0xFFFFFFFC#32

end Sys2Proof.Machine
end

