-- ==== Sys2Proof/Machine/Memory.lean ====
section
/-!
DEFINITION. Physical memory: a list of (address, byte) pairs in one canonical form over the whole 32-bit physical
address space (rules R72, R83, R84; logs 3 and 4).
-/

namespace Sys2Proof.Machine.Memory

/-- What an address no entry lists reads as. DESIGN CHOICE: zero (log 3). -/
def unlisted : Byte := 0

/-- The number of physical byte addresses (rule R83). -/
def size : Nat := 4294967296

/-- The byte at an address. -/
def read : List Host.Cell → Nat → Byte
  | [], _ => unlisted
  | (a, b) :: rest, x => if a = x then b else read rest x

/-- Memory with one byte written, in canonical form: writing what an unlisted address reads as removes the entry. -/
def write : List Host.Cell → Nat → Byte → List Host.Cell
  | [], x, v => if v = unlisted then [] else [(x, v)]
  | (a, b) :: rest, x, v =>
    if x < a then (if v = unlisted then (a, b) :: rest else (x, v) :: (a, b) :: rest)
    else if x = a then (if v = unlisted then rest else (x, v) :: rest)
    else (a, b) :: write rest x v

/-- Every address of a list lies above a bound and below the size of the address space, rising strictly, and no byte
is what an unlisted address reads as. -/
def wfAbove : Nat → List Host.Cell → Bool
  | _, [] => true
  | lo, (a, b) :: rest => decide (lo ≤ a) && decide (a < size) && decide (b ≠ unlisted) && wfAbove (a + 1) rest

/-- The canonical form holds. -/
def wf (m : List Host.Cell) : Bool := wfAbove 0 m

/-- Bytes written at successive addresses. -/
def writeBytes : List Host.Cell → Nat → List Byte → List Host.Cell
  | m, _, [] => m
  | m, a, b :: bs => writeBytes (write m a b) (a + 1) bs

/-- The word whose four bytes stand from an address on, the least significant first (rule R72). -/
def readWord (m : List Host.Cell) (a : Nat) : Word :=
  wordOfBytes (read m a) (read m (a + 1)) (read m (a + 2)) (read m (a + 3))

/-- The halfword whose two bytes stand from an address on. -/
def readHalf (m : List Host.Cell) (a : Nat) : BitVec 16 := read m (a + 1) ++ read m a

/-- Memory with a word written. -/
def writeWord (m : List Host.Cell) (a : Nat) (v : Word) : List Host.Cell := writeBytes m a (bytesOfWord v)

end Sys2Proof.Machine.Memory

namespace Sys2Proof.Machine

/-- An access as the core presents it to memory: the physical address, and the P attribute, whose meaning the ASSP
defines and which has no effect in the core (rule R95, D14, log 10). -/
structure BusAccess where
  address : Word
  p : Bool
  deriving DecidableEq, Repr

/-- The word an access reads. -/
def BusAccess.word (b : BusAccess) (m : List Host.Cell) : Word := Memory.readWord m b.address.toNat

end Sys2Proof.Machine
end

