-- ==== Sys2Proof/Machine/Ops.lean ====
section
/-!
DEFINITION. The named operations over registers and status: modes and banks, reading and writing registers, advancing
and branching, taking an exception (one operation for all of them) and returning from one, and the two checks every
meaning starts with.
-/

namespace Sys2Proof.Machine

/-- What exec and step answer. -/
abbrev Answer := Host.Outcome State Fault Refusal

/-! ## Modes -/

/-- The seven processor modes (rule R27). -/
inductive Mode where
  | usr | fiq | irq | svc | abt | und | sys
  deriving DecidableEq, Repr

/-- The number of a mode in CPSR bits 4:0 (rule R27). -/
def Mode.toBits : Mode → BitVec 5
  | .usr => 0b10000
  | .fiq => 0b10001
  | .irq => 0b10010
  | .svc => 0b10011
  | .abt => 0b10111
  | .und => 0b11011
  | .sys => 0b11111

/-- The mode a number names; every other number is UNPREDICTABLE (rule R27). -/
def Mode.ofBits (b : BitVec 5) : Option Mode :=
  if b = 0b10000 then some .usr
  else if b = 0b10001 then some .fiq
  else if b = 0b10010 then some .irq
  else if b = 0b10011 then some .svc
  else if b = 0b10111 then some .abt
  else if b = 0b11011 then some .und
  else if b = 0b11111 then some .sys
  else none

/-- The mode a status register names, where it names one. -/
def psrMode (psr : Word) : Option Mode := Mode.ofBits (psr.extractLsb' 0 5)

/-- The mode the machine is in. A CPSR that names no mode reads as User here; a step refuses such a state. -/
def State.mode (s : State) : Mode := (psrMode s.cpsr).getD .usr

/-- Every mode but User is privileged (rule R370). -/
def State.privileged (s : State) : Bool := s.mode != .usr

/-! ## Flags and masks of the CPSR (rule R27) -/

def State.n (s : State) : Bool := s.cpsr.getLsbD 31
def State.z (s : State) : Bool := s.cpsr.getLsbD 30
def State.c (s : State) : Bool := s.cpsr.getLsbD 29
def State.v (s : State) : Bool := s.cpsr.getLsbD 28
def State.q (s : State) : Bool := s.cpsr.getLsbD 27
def State.irqDisabled (s : State) : Bool := s.cpsr.getLsbD 7
def State.fiqDisabled (s : State) : Bool := s.cpsr.getLsbD 6
def State.thumb (s : State) : Bool := s.cpsr.getLsbD 5

/-- `ConditionPassed(cond)` (rule R28). -/
def conditionPassed (c : Cond) (s : State) : Bool :=
  match c with
  | .eq => s.z
  | .ne => !s.z
  | .cs => s.c
  | .cc => !s.c
  | .mi => s.n
  | .pl => !s.n
  | .vs => s.v
  | .vc => !s.v
  | .hi => s.c && !s.z
  | .ls => !s.c || s.z
  | .ge => s.n == s.v
  | .lt => s.n != s.v
  | .gt => !s.z && (s.n == s.v)
  | .le => s.z || (s.n != s.v)
  | .al => true

/-! ## General registers (rules R20 to R24) -/

/-- Where a register number 0 to 14 stands in `State.gpr` in a mode (rule R21). -/
def bank (m : Mode) (r : Reg) : Fin 30 :=
  if h : r.toNat < 8 then ⟨r.toNat, by omega⟩
  else
    match m with
    | .fiq => if h : r.toNat < 15 then ⟨r.toNat + 7, by omega⟩ else 0
    | .irq => if r.toNat < 13 then ⟨r.toNat, by omega⟩ else if r = 13 then 22 else 23
    | .svc => if r.toNat < 13 then ⟨r.toNat, by omega⟩ else if r = 13 then 24 else 25
    | .abt => if r.toNat < 13 then ⟨r.toNat, by omega⟩ else if r = 13 then 26 else 27
    | .und => if r.toNat < 13 then ⟨r.toNat, by omega⟩ else if r = 13 then 28 else 29
    | .usr => ⟨r.toNat, by omega⟩
    | .sys => ⟨r.toNat, by omega⟩

/-- `R[n]`: the current mode's copy; R15 reads as the instruction's address plus 8 (rules R11, R24). -/
def State.reg (s : State) (r : Reg) : Word :=
  if r = Reg.pc then s.pc + 8 else s.gpr[bank s.mode r]

/-- A write of one of R0 to R14 in a given mode's bank. -/
def State.setBanked (s : State) (m : Mode) (r : Reg) (v : Word) : State :=
  { s with gpr := s.gpr.set (bank m r) v }

/-- The next instruction to execute is the one at an address (rule R25). -/
def State.branchTo (s : State) (target : Word) : State := { s with pc := target, pastTop := false }

/-- `R[n] <- v` in the current mode; a write of R15 is a transfer of control (rule R11). -/
def State.setReg (s : State) (r : Reg) (v : Word) : State :=
  if r = Reg.pc then s.branchTo v else s.setBanked s.mode r v

/-- The program counter moves to the next instruction (rule R25); past the top of the address space there is none
(D7). -/
def State.advance (s : State) : State :=
  { s with pc := s.pc + 4, pastTop := decide (4294967292 ≤ s.pc.toNat) }

/-! ## Saved status registers (rule R29) -/

/-- The SPSR of a mode; User and System have none. -/
def State.spsr (s : State) : Mode → Option Word
  | .fiq => some s.spsrFiq
  | .irq => some s.spsrIrq
  | .svc => some s.spsrSvc
  | .abt => some s.spsrAbt
  | .und => some s.spsrUnd
  | .usr => none
  | .sys => none

/-- A write of the SPSR of a mode. -/
def State.setSpsr (s : State) (m : Mode) (v : Word) : State :=
  match m with
  | .fiq => { s with spsrFiq := v }
  | .irq => { s with spsrIrq := v }
  | .svc => { s with spsrSvc := v }
  | .abt => { s with spsrAbt := v }
  | .und => { s with spsrUnd := v }
  | .usr => s
  | .sys => s

/-- A write of the whole CPSR. -/
def State.setCpsr (s : State) (v : Word) : State := { s with cpsr := v }

/-! ## Taking an exception (rules R330, R331, R334) -/

/-- The exceptions a step can take; Reset is the start of a run (rule R390). -/
inductive Exception where
  | undefined | swi | prefetchAbort | dataAbort | irq | fiq
  deriving DecidableEq, Repr

/-- The mode an exception enters (rule R330). -/
def Exception.mode : Exception → Mode
  | .undefined => .und
  | .swi => .svc
  | .prefetchAbort => .abt
  | .dataAbort => .abt
  | .irq => .irq
  | .fiq => .fiq

/-- The offset of an exception's vector from the vector base (rule R331). -/
def Exception.offset : Exception → Word
  | .undefined => 0x04
  | .swi => 0x08
  | .prefetchAbort => 0x0C
  | .dataAbort => 0x10
  | .irq => 0x18
  | .fiq => 0x1C

/-- The vector base: Control Register bit 13, V, selects it (rule R331, log 28). -/
def State.vectorBase (s : State) : Word := if s.eff.control.getLsbD 13 then 0xFFFF0000 else 0x00000000

/-- The CPSR after an exception: T = 0, I = 1, F = 1 for FIQ, the mode; every other bit as it was (rule R330). -/
def Exception.cpsr (k : Exception) (old : Word) : Word :=
  (old &&& 0xFFFFFF40) ||| 0x80 ||| (if k = .fiq then 0x40 else 0) ||| k.mode.toBits.setWidth 32

/-- Taking an exception, with the value its R14 receives (rule R330): the one operation for all of them. It also ends
a CPWAIT sequence in progress (log 8). -/
def State.takeException (s : State) (k : Exception) (link : Word) : State :=
  { ((s.setBanked k.mode Reg.lr link).setSpsr k.mode s.cpsr) with
    cpsr := k.cpsr s.cpsr
    pc := s.vectorBase + k.offset
    pastTop := false
    cpwait := .idle }

/-- The Undefined Instruction exception of the executing instruction: `R14_und = A + 4` (rules R334, R356). -/
def State.takeUndefined (s : State) : State := s.takeException .undefined (s.pc + 4)

/-- The Software Interrupt exception: `R14_svc = A + 4` (rules R334, R357). -/
def State.takeSwi (s : State) : State := s.takeException .swi (s.pc + 4)

/-- The IRQ exception at an instruction boundary: `R14_irq = N + 4` (rules R334, R358). -/
def State.takeIrq (s : State) : State := s.takeException .irq (s.pc + 4)

/-- The FIQ exception at an instruction boundary: `R14_fiq = N + 4` (rules R334, R358). -/
def State.takeFiq (s : State) : State := s.takeException .fiq (s.pc + 4)

/-! ## Aborts (rules R340 to R354, R364) -/

/-- The MMU faults of a translation; the domain number where the tables call it valid (rules R341, R347). -/
inductive MmuFault where
  | walkFirst
  | walkSecond (domain : BitVec 4)
  | translationSection
  | translationPage (domain : BitVec 4)
  | domainSection (domain : BitVec 4)
  | domainPage (domain : BitVec 4)
  | permissionSection (domain : BitVec 4)
  | permissionPage (domain : BitVec 4)
  deriving DecidableEq, Repr

/-- `FS[10,3:0]` of a data MMU fault (rule R347). -/
def MmuFault.status : MmuFault → BitVec 5
  | .walkFirst => 0b01100
  | .walkSecond _ => 0b01110
  | .translationSection => 0b00101
  | .translationPage _ => 0b00111
  | .domainSection _ => 0b01001
  | .domainPage _ => 0b01011
  | .permissionSection _ => 0b01101
  | .permissionPage _ => 0b01111

/-- The domain a data MMU fault reports, where it is valid (rule R347). -/
def MmuFault.domain : MmuFault → Option (BitVec 4)
  | .walkFirst => none
  | .walkSecond d => some d
  | .translationSection => none
  | .translationPage d => some d
  | .domainSection d => some d
  | .domainPage d => some d
  | .permissionSection d => some d
  | .permissionPage d => some d

/-- The causes of a precise data abort (rules R343, R346, R348). -/
inductive DataAbort where
  | alignment
  | mmu (f : MmuFault)
  | lock
  deriving DecidableEq, Repr

/-- `FS[10,3:0]` of an alignment abort: `0b000x1`, `x` being either value (rule R75). -/
def alignmentStatus (tick : Nat) : BitVec 5 := if Config.alignmentCodeBit tick then 0b00011 else 0b00001

/-- `FS[10,3:0]` of a precise data abort (rule R347). -/
def DataAbort.status (a : DataAbort) (tick : Nat) : BitVec 5 :=
  match a with
  | .alignment => alignmentStatus tick
  | .mmu f => f.status
  | .lock => 0b10100

/-- The domain a precise data abort reports, where it is valid (rule R347). -/
def DataAbort.domain : DataAbort → Option (BitVec 4)
  | .alignment => none
  | .mmu f => f.domain
  | .lock => none

/-- The FSR an abort leaves: the status in bits 10 and 3:0, the domain in bits 7:4 where it is valid, and nothing
stated of the rest (rules R38, R364, log 19). -/
def abortFsr (status : BitVec 5) (domain : Option (BitVec 4)) (tick : Nat) : Word :=
  (Config.fsrUnstated tick &&& 0xFFFFFB00)
    ||| bitAt (status.getLsbD 4) 10
    ||| ((domain.getD (Config.invalidDomain tick)).setWidth 32 <<< 4)
    ||| ((status.extractLsb' 0 4).setWidth 32)

/-- `FS[10,3:0]`: the five status bits of an FSR value (rule R38). -/
def fsrStatus (fsr : Word) : BitVec 5 := fsr.extractLsb' 10 1 ++ fsr.extractLsb' 0 4

/-- The domain field of an FSR value, bits 7:4 (rule R38). -/
def fsrDomain (fsr : Word) : BitVec 4 := fsr.extractLsb' 4 4

/-- A precise data abort of the executing instruction (rules R344 to R348): FSR and FAR written, `R14_abt = A + 8`.
A lock abort leaves the FAR undefined. -/
def State.takeDataAbort (s : State) (a : DataAbort) (va : Word) : State :=
  { s.takeException .dataAbort (s.pc + 8) with
    fsr := abortFsr (a.status s.tick) a.domain s.tick
    far := if a = .lock then Config.undefinedFar s.tick else va }

/-- A prefetch abort of the instruction at the program counter, with its status (rules R340, R341): `R14_abt = A + 4`;
the FAR is not updated (log 20). -/
def State.takePrefetchAbort (s : State) (status : BitVec 5) : State :=
  { s.takeException .prefetchAbort (s.pc + 4) with
    fsr := abortFsr status none s.tick }

/-- `FS[10,3:0]` of an imprecise data abort (rules R347, R352, R353). -/
def ImpreciseCause.status : ImpreciseCause → BitVec 5
  | .external => 0b10110
  | .parity => 0b11000

/-- An imprecise data abort at an instruction boundary (rule R352): `R14_abt = N + 4`, the FAR undefined. -/
def State.takeImpreciseAbort (s : State) (c : ImpreciseCause) : State :=
  { s.takeException .dataAbort (s.pc + 4) with
    fsr := abortFsr c.status none s.tick
    far := Config.undefinedFar s.tick }

/-! ## Transfers of control -/

/-- A data-processing write of R15 (rules R274, R300): bits 1:0 of the target are zero, T stays. -/
def State.dataBranch (s : State) (target : Word) : Answer :=
  if target.extractLsb' 0 2 = 0 then .next (s.branchTo target) else .refused .unalignedBranch

/-- BX, BLX and a load to R15: bit 0 becomes T and is cleared in the address; `0b10` in bits 1:0 is UNPREDICTABLE
(rules R280, R300, R301). -/
def State.exchangeBranch (s : State) (target : Word) : Answer :=
  if target.extractLsb' 0 2 = 0b10 then .refused .unalignedBranch
  else
    .next ({ s with cpsr := mergeMask 0x20 s.cpsr (bitAt (target.getLsbD 0) 5) }.branchTo
      (target &&& 0xFFFFFFFE))

/-- Return from an exception (rules R274, R335): the SPSR of the current mode becomes the CPSR and the result the
program counter, in one step. -/
def State.exceptionReturn (s : State) (target : Word) : Answer :=
  match s.spsr s.mode with
  | none => .refused .noSpsr
  | some psr =>
    match psrMode psr with
    | none => .refused .unpredictableMode
    | some _ =>
      -- an ARM-state target is a multiple of 4, a Thumb-state one a multiple of 2 (rule R300, log 37)
      if target.extractLsb' 0 2 = 0 ∨ (psr.getLsbD 5 = true ∧ target.getLsbD 0 = false) then
        .next ((s.setCpsr psr).branchTo target)
      else .refused .unalignedBranch

/-! ## The two checks a meaning starts with -/

/-- An instruction whose condition fails only advances the program counter (rule R28). -/
def conditional (c : Cond) (s : State) (body : Answer) : Answer :=
  if conditionPassed c s then body else .next s.advance

/-- An instruction whose register fields the spec calls UNPREDICTABLE has no meaning (logs 30 and 31). -/
def predictably (i : Instr) (body : Answer) : Answer :=
  if i.predictable then body else .refused .unpredictableRegisters

/-- What the environment chooses for this step: the head of the list, or the quiet environment when it has run out
(log 5). -/
def State.now (s : State) : Env := s.env.headD Env.quiet

end Sys2Proof.Machine
end

