-- ==== Sys2Proof/Machine/Accumulator.lean ====
section
/-!
DEFINITION. Coprocessor 0: the multiply-accumulates MIA, MIAPH, MIABB, MIABT, MIATB, MIATT and the accumulator moves
MAR and MRA (rules R210 to R236).
-/

namespace Sys2Proof.Machine

/-- Bit 0 of the Coprocessor Access Register gates coprocessor 0 in every mode: while it is clear any access takes the
Undefined Instruction exception (rules R40, R211, R356). -/
def accumulatorGate (s : State) (body : Answer) : Answer :=
  if s.eff.cpar.getLsbD 0 then body else .next s.takeUndefined

/-- `acc0 = wrap40(p + uint(acc0))`: an exact product added modulo 2^40; no flag (rules R211, R214). -/
def State.accumulate (s : State) (p : Int) : Answer :=
  .next { s with acc0 := s.acc0 + BitVec.ofInt 40 p }.advance

/-- MIA (rule R215). -/
def execMia (c : Cond) (rs rm : Reg) (s : State) : Answer :=
  conditional c s (accumulatorGate s (predictably (.mia c rs rm)
    (s.accumulate ((s.reg rm).toInt * (s.reg rs).toInt))))

/-- MIAPH (rule R217). -/
def execMiaph (c : Cond) (rs rm : Reg) (s : State) : Answer :=
  conditional c s (accumulatorGate s (predictably (.miaph c rs rm)
    (s.accumulate (halfProduct .top (s.reg rm) .top (s.reg rs)
      + halfProduct .bottom (s.reg rm) .bottom (s.reg rs)))))

/-- MIABB (rule R219). -/
def execMiabb (c : Cond) (rs rm : Reg) (s : State) : Answer :=
  conditional c s (accumulatorGate s (predictably (.miabb c rs rm)
    (s.accumulate (halfProduct .bottom (s.reg rm) .bottom (s.reg rs)))))

/-- MIABT (rule R220). -/
def execMiabt (c : Cond) (rs rm : Reg) (s : State) : Answer :=
  conditional c s (accumulatorGate s (predictably (.miabt c rs rm)
    (s.accumulate (halfProduct .bottom (s.reg rm) .top (s.reg rs)))))

/-- MIATB (rule R221). -/
def execMiatb (c : Cond) (rs rm : Reg) (s : State) : Answer :=
  conditional c s (accumulatorGate s (predictably (.miatb c rs rm)
    (s.accumulate (halfProduct .top (s.reg rm) .bottom (s.reg rs)))))

/-- MIATT (rule R222). -/
def execMiatt (c : Cond) (rs rm : Reg) (s : State) : Answer :=
  conditional c s (accumulatorGate s (predictably (.miatt c rs rm)
    (s.accumulate (halfProduct .top (s.reg rm) .top (s.reg rs)))))

/-- MAR (rule R233): `acc0 = R[RdHi][7:0] :: R[RdLo]`. -/
def execMar (c : Cond) (rdHi rdLo : Reg) (s : State) : Answer :=
  conditional c s (accumulatorGate s (predictably (.mar c rdHi rdLo)
    (.next { s with acc0 := (s.reg rdHi).extractLsb' 0 8 ++ s.reg rdLo }.advance)))

/-- MRA (rule R234): bits 31:0 to RdLo, bits 39:32 sign-extended to RdHi. -/
def execMra (c : Cond) (rdHi rdLo : Reg) (s : State) : Answer :=
  conditional c s (accumulatorGate s (predictably (.mra c rdHi rdLo)
    (.next ((s.setReg rdLo (s.acc0.extractLsb' 0 32)).setReg rdHi
      ((s.acc0.extractLsb' 32 8).signExtend 32)).advance)))

end Sys2Proof.Machine
end

