-- ==== Sys2Proof/Machine/Flags.lean ====
section
/-!
DEFINITION. Every flag computation of the spec: N and Z of a result, the carry and overflow of an addition and of a
subtraction, the shifter's carry, the sticky Q flag, and MSR's field mask (rules R27, R182, R187, R270 to R273, R290,
R307).
-/

namespace Sys2Proof.Machine

/-- The CPSR with N and Z of a result (rule R27): C, V and every other bit as they were (rule R290). -/
def withNZ (cpsr result : Word) : Word :=
  mergeMask 0xC0000000 cpsr (bitAt (result.getLsbD 31) 31 ||| bitAt (decide (result = 0)) 30)

/-- The CPSR with N, Z of a result and a carry; V as it was (rules R270, R272). -/
def withNZC (cpsr result : Word) (carry : Bool) : Word :=
  mergeMask 0xE0000000 cpsr
    (bitAt (result.getLsbD 31) 31 ||| bitAt (decide (result = 0)) 30 ||| bitAt carry 29)

/-- The CPSR with all four condition flags (rules R271, R273). -/
def withNZCV (cpsr result : Word) (carry overflow : Bool) : Word :=
  mergeMask 0xF0000000 cpsr
    (bitAt (result.getLsbD 31) 31 ||| bitAt (decide (result = 0)) 30 ||| bitAt carry 29 ||| bitAt overflow 28)

/-- The CPSR with Q set when a DSP instruction saturates or overflows; Q is never cleared (rule R27). -/
def withQ (cpsr : Word) (saturated : Bool) : Word := if saturated then cpsr ||| 0x08000000 else cpsr

/-- The carry of ADDS (rule R271). -/
def addCarry (a b : Word) : Bool := decide (4294967296 ≤ a.toNat + b.toNat)

/-- The overflow of ADDS (rule R271). -/
def addOverflow (a b : Word) : Bool := !fits32 (a.toInt + b.toInt)

/-- The carry of SUBS: NOT borrow (rule R273). -/
def subCarry (a b : Word) : Bool := decide (b.toNat ≤ a.toNat)

/-- The overflow of SUBS (rule R273). -/
def subOverflow (a b : Word) : Bool := !fits32 (a.toInt - b.toInt)

/-- The bytes of a status register that MSR's field mask selects (rule R307). -/
def fieldMask (mask : BitVec 4) : Word :=
  (if mask.getLsbD 0 then 0x000000FF else 0) ||| (if mask.getLsbD 1 then 0x0000FF00 else 0)
    ||| (if mask.getLsbD 2 then 0x00FF0000 else 0) ||| (if mask.getLsbD 3 then 0xFF000000 else 0)

end Sys2Proof.Machine
end

