-- ==== Sys2Proof/Machine/Operands.lean ====
section
/-!
DEFINITION. The operand forms: the shifter operand of data processing in its three forms with its carry (rule R148),
and the addresses of loads and stores in their three indexing forms (rule R149).
-/

namespace Sys2Proof.Machine

/-- A shifter operand and its carry (rule R148). -/
structure Shifted where
  value : Word
  carry : Bool
  deriving DecidableEq, Repr

/-- Form (a): an 8-bit immediate rotated right by twice the rotate field (rule R148). -/
def immediateOperand (rot : BitVec 4) (imm : BitVec 8) (carryIn : Bool) : Shifted :=
  let v : Word := (imm.setWidth 32).rotateRight (2 * rot.toNat)
  { value := v, carry := if rot = 0 then carryIn else v.getLsbD 31 }

/-- Form (b): a register value shifted by an immediate; amount 0 means 32 for LSR and ASR, and RRX for ROR
(rule R148). -/
def shiftByImmediate (sh : Shift) (w : Word) (amount : BitVec 5) (carryIn : Bool) : Shifted :=
  let n := amount.toNat
  match sh with
  | .lsl => if n = 0 then ⟨w, carryIn⟩ else ⟨w <<< n, w.getLsbD (32 - n)⟩
  | .lsr => if n = 0 then ⟨0, w.getLsbD 31⟩ else ⟨w >>> n, w.getLsbD (n - 1)⟩
  | .asr => if n = 0 then ⟨w.sshiftRight 32, w.getLsbD 31⟩ else ⟨w.sshiftRight n, w.getLsbD (n - 1)⟩
  | .ror =>
    if n = 0 then ⟨bitAt carryIn 31 ||| (w >>> 1), w.getLsbD 0⟩
    else ⟨w.rotateRight n, w.getLsbD (n - 1)⟩

/-- Form (c): a register value shifted by bits 7:0 of another register (rule R148). -/
def shiftByRegister (sh : Shift) (w rs : Word) (carryIn : Bool) : Shifted :=
  let n := (rs.extractLsb' 0 8).toNat
  match sh with
  | .lsl =>
    if n = 0 then ⟨w, carryIn⟩
    else if n < 32 then ⟨w <<< n, w.getLsbD (32 - n)⟩
    else if n = 32 then ⟨0, w.getLsbD 0⟩
    else ⟨0, false⟩
  | .lsr =>
    if n = 0 then ⟨w, carryIn⟩
    else if n < 32 then ⟨w >>> n, w.getLsbD (n - 1)⟩
    else if n = 32 then ⟨0, w.getLsbD 31⟩
    else ⟨0, false⟩
  | .asr =>
    if n = 0 then ⟨w, carryIn⟩
    else if n < 32 then ⟨w.sshiftRight n, w.getLsbD (n - 1)⟩
    else ⟨w.sshiftRight 32, w.getLsbD 31⟩
  | .ror =>
    if n = 0 then ⟨w, carryIn⟩
    else if n % 32 = 0 then ⟨w, w.getLsbD 31⟩
    else ⟨w.rotateRight (n % 32), w.getLsbD (n % 32 - 1)⟩

/-- An address and, where the form writes its base back, the value written (rule R149). -/
structure Address where
  address : Word
  writeback : Option Word
  deriving DecidableEq, Repr

/-- Base plus or minus offset, modulo 2^32 (rule R149, log 40). -/
def offsetBase (u : Bool) (base offset : Word) : Word := if u then base + offset else base - offset

/-- The three indexing forms (rule R149). -/
def indexedAddress (m : Index) (u : Bool) (base offset : Word) : Address :=
  match m with
  | .offset => ⟨offsetBase u base offset, none⟩
  | .preIndexed => ⟨offsetBase u base offset, some (offsetBase u base offset)⟩
  | .postIndexed => ⟨base, some (offsetBase u base offset)⟩

/-- The offset of the scaled register form: form (b) of the shifter operand, its carry unused (rule R149). -/
def scaledOffset (s : State) (amount : BitVec 5) (sh : Shift) (rm : Reg) : Word :=
  (shiftByImmediate sh (s.reg rm) amount s.c).value

/-- The address of a load or store with an immediate offset. -/
def immediateAddress {n : Nat} (s : State) (m : Index) (u : Bool) (rn : Reg) (offset : BitVec n) : Address :=
  indexedAddress m u (s.reg rn) (offset.setWidth 32)

/-- The address of a load or store with a scaled register offset. -/
def scaledAddress (s : State) (m : Index) (u : Bool) (rn : Reg) (amount : BitVec 5) (sh : Shift) (rm : Reg) :
    Address :=
  indexedAddress m u (s.reg rn) (scaledOffset s amount sh rm)

/-- The address of a halfword or doubleword load or store with a register offset. -/
def registerAddress (s : State) (m : Index) (u : Bool) (rn rm : Reg) : Address :=
  indexedAddress m u (s.reg rn) (s.reg rm)

/-- The base register written back, where the form asks for it (rule R149). -/
def State.writeBack (s : State) (rn : Reg) (a : Address) : State :=
  match a.writeback with
  | none => s
  | some v => s.setReg rn v

/-- The word offset of B, BL and BLX: the 24-bit field sign-extended and shifted left by two (rule R151). -/
def branchOffset (imm : BitVec 24) : Word := (imm.signExtend 32) <<< 2

end Sys2Proof.Machine
end

