-- ==== Sys2Proof/Machine/Branch.lean ====
section
/-!
DEFINITION. Branches and the software interrupt: B, BL, BX, BLX in both forms, SWI (rules R298 to R305). A transfer to
Thumb state is executed as the rules state it; the next step refuses Thumb state (log 15).
-/

namespace Sys2Proof.Machine

/-- The link register of the current mode receives the address of the next instruction (rules R22, R299). -/
def State.link (s : State) : State := s.setReg Reg.lr (s.pc + 4)

/-- The target of B, BL and BLX: `A + 8` plus the offset (rule R151). -/
def State.branchTarget (s : State) (imm : BitVec 24) : Word := s.pc + 8 + branchOffset imm

/-- B (rule R298). -/
def execB (c : Cond) (imm : BitVec 24) (s : State) : Answer :=
  conditional c s (.next (s.branchTo (s.branchTarget imm)))

/-- BL (rule R299). -/
def execBl (c : Cond) (imm : BitVec 24) (s : State) : Answer :=
  conditional c s (.next (s.link.branchTo (s.branchTarget imm)))

/-- BLX, immediate form: enters Thumb state (rule R303). -/
def execBlxImm (h : Bool) (imm : BitVec 24) (s : State) : Answer :=
  .next (({ s.link with cpsr := s.cpsr ||| 0x20 }).branchTo (s.branchTarget imm + bitAt h 1))

/-- BX (rule R301). -/
def execBx (c : Cond) (rm : Reg) (s : State) : Answer :=
  conditional c s (s.exchangeBranch (s.reg rm))

/-- BLX, register form: R14 is written and then the transfer is BX's, so with Rm = R14 the target is the address of
the next instruction (rule R302). -/
def execBlxReg (c : Cond) (rm : Reg) (s : State) : Answer :=
  conditional c s (predictably (.blxReg c rm) (s.link.exchangeBranch (s.link.reg rm)))

/-- SWI takes the Software Interrupt exception; its field is ignored (rules R305, R357). -/
def execSwi (c : Cond) (_imm : BitVec 24) (s : State) : Answer :=
  conditional c s (.next s.takeSwi)

end Sys2Proof.Machine
end

