-- ==== Sys2Proof/Machine/Attributes.lean ====
section
/-!
DEFINITION. What the memory attributes X, C and B mean for a data access: Tables 3-15 to 3-17 (rules R102 to R112).
-/

namespace Sys2Proof.Machine

/-- When a store reaches external memory (rule R104). -/
inductive WritePolicy where
  | writeThrough | writeBack
  deriving DecidableEq, Repr

/-- Which misses bring a line into the cache (rule R103). -/
inductive AllocatePolicy where
  | readAllocate | readWriteAllocate
  deriving DecidableEq, Repr

/-- What a region's attributes ask of the caches and the write buffer (rule R102). -/
inductive Policy where
  /-- Neither cacheable nor bufferable: stall until complete (rule R105). -/
  | stallUntilComplete
  /-- Not cacheable, bufferable; the flag says whether writes may coalesce (rule R106). -/
  | buffered (coalesces : Bool)
  /-- Cacheable and bufferable; the flag says whether in the mini-data cache (rules R103, R104, R107). -/
  | cached (mini : Bool) (w : WritePolicy) (a : AllocatePolicy)
  deriving DecidableEq, Repr

/-- The policy of the mini-data cache: the MD field, bits 5:4, of the Auxiliary Control Register; `0b11` is
UNPREDICTABLE (rules R37, R108). -/
def miniPolicy (auxControl : Word) : Option Policy :=
  if auxControl.extractLsb' 4 2 = 0b00 then some (.cached true .writeBack .readAllocate)
  else if auxControl.extractLsb' 4 2 = 0b01 then some (.cached true .writeBack .readWriteAllocate)
  else if auxControl.extractLsb' 4 2 = 0b10 then some (.cached true .writeThrough .readAllocate)
  else none

/-- The K bit, bit 0 of the Auxiliary Control Register: it disables write-buffer coalescing (rule R37). -/
def coalescingDisabled (auxControl : Word) : Bool := auxControl.getLsbD 0

/-- Tables 3-15 and 3-16, merged (rule R102); X = 1, C = 0, B = 0 is UNPREDICTABLE. Writes to a bufferable region
coalesce where X = 0, unless the K bit says otherwise (rules R37, R106). -/
def dataPolicy (a : Attributes) (auxControl : Word) : Option Policy :=
  match a.x, a.c, a.b with
  | false, false, false => some .stallUntilComplete
  | false, false, true => some (.buffered !(coalescingDisabled auxControl))
  | false, true, false => some (.cached false .writeThrough .readAllocate)
  | false, true, true => some (.cached false .writeBack .readAllocate)
  | true, false, false => none
  | true, false, true => some (.buffered false)
  | true, true, false => miniPolicy auxControl
  | true, true, true => some (.cached false .writeBack .readWriteAllocate)

/-- Whether the region is in the data cache or the mini-data cache. -/
def Policy.isCached : Policy → Bool
  | .cached _ _ _ => true
  | _ => false

/-- Whether stores stay in the cache until the line is cleaned or replaced (rule R104). -/
def Policy.isWriteBack : Policy → Bool
  | .cached _ .writeBack _ => true
  | _ => false

/-- Table 3-17: whether a load is a fence (rule R111). -/
def loadIsFence (a : Attributes) : Bool := !a.c

/-- Table 3-17: whether a store is a fence (rule R111). -/
def storeIsFence (a : Attributes) : Bool := (a.x && !a.c && a.b) || (!a.x && !a.c && !a.b)

/-- A swap is a fence wherever a load or a store would be (rule R112). -/
def swapIsFence (a : Attributes) : Bool := loadIsFence a || storeIsFence a

/-- The attributes of a data access with the MMU off: as X = C = B = 0 (rule R86). -/
def Attributes.off : Attributes := ⟨false, false, false, false⟩

/-- The attributes of an instruction fetch with the MMU off: cacheable by default (rule R86). -/
def Attributes.fetchOff : Attributes := ⟨false, true, false, false⟩

end Sys2Proof.Machine
end

