-- ==== Sys2Proof/Machine/Translation.lean ====
section
/-!
DEFINITION. The memory management unit: PID remap (rule R43), the two-level walk (rules R89 to R97), domain and
permission checks (rule R98), the two TLBs with their round-robin and lock pointers (rules R50 to R53, R120 to R129).
The walk and the checks are PRESUMED: the spec marks them as general knowledge (log 10).
-/

namespace Sys2Proof.Machine

/-! ## Control bits in effect (rules R32 to R35) -/

def State.mmuOn (s : State) : Bool := s.eff.control.getLsbD 0
def State.alignmentChecked (s : State) : Bool := s.eff.control.getLsbD 1
def State.dataCacheOn (s : State) : Bool := s.eff.control.getLsbD 2
def State.bigEndian (s : State) : Bool := s.eff.control.getLsbD 7
def State.instructionCacheOn (s : State) : Bool := s.eff.control.getLsbD 12

/-- The modified virtual address: an address whose bits 31:25 are zero takes the process ID there (rule R43). -/
def remap (pid va : Word) : Word := if va.extractLsb' 25 7 = 0 then va ||| (pid &&& 0xFE000000) else va

/-! ## TLB entries -/

/-- The bits of an address that name the mapped region (rules R90 to R93). -/
def PageSize.mask : PageSize → Word
  | .section1M => 0xFFF00000
  | .large64K => 0xFFFF0000
  | .small4K => 0xFFFFF000
  | .tiny1K => 0xFFFFFC00

/-- Whether an entry translates a modified virtual address. -/
def TlbEntry.hits (e : TlbEntry) (mva : Word) : Bool := e.valid && (mva &&& e.size.mask == e.tag)

/-- The physical address an entry gives (rule R97). -/
def TlbEntry.physical (e : TlbEntry) (mva : Word) : Word :=
  (e.base &&& e.size.mask) ||| (mva &&& ~~~e.size.mask)

/-- The number of the subpage an address lies in: four equal subpages, AP0 for the lowest addresses (rule R92). -/
def subpage (size : PageSize) (mva : Word) : Nat :=
  match size with
  | .section1M => 0
  | .large64K => (mva.extractLsb' 14 2).toNat
  | .small4K => (mva.extractLsb' 10 2).toNat
  | .tiny1K => 0

/-- The access permission field that governs an address (rule R92). -/
def TlbEntry.ap (e : TlbEntry) (mva : Word) : BitVec 2 := e.aps.extractLsb' (2 * subpage e.size mva) 2

/-- Four copies of one access permission field. -/
def fourAps (ap : BitVec 2) : BitVec 8 := ap ++ ap ++ ap ++ ap

/-! ## The walk (rule R97) -/

/-- The entry of a first-level section descriptor (rule R90). -/
def sectionEntry (d1 mva : Word) : TlbEntry where
  valid := true
  locked := false
  tag := mva &&& PageSize.section1M.mask
  size := .section1M
  base := d1 &&& PageSize.section1M.mask
  aps := fourAps (d1.extractLsb' 10 2)
  domain := d1.extractLsb' 5 4
  attributes := ⟨d1.getLsbD 12, d1.getLsbD 3, d1.getLsbD 2, d1.getLsbD 9⟩

/-- The entry of a second-level descriptor: its size, its four permission fields and its X bit given (rules R91, R93);
domain and P come from the first level (rule R95). -/
def pageEntry (d1 d2 mva : Word) (size : PageSize) (aps : BitVec 8) (x : Bool) : TlbEntry where
  valid := true
  locked := false
  tag := mva &&& size.mask
  size := size
  base := d2 &&& size.mask
  aps := aps
  domain := d1.extractLsb' 5 4
  attributes := ⟨x, d2.getLsbD 3, d2.getLsbD 2, d1.getLsbD 9⟩

/-- The address of the first-level descriptor: `TTB[31:14] :: mva[31:20] :: 0b00`. -/
def firstLevelAddress (ttb mva : Word) : Word := ttb.extractLsb' 14 18 ++ mva.extractLsb' 20 12 ++ 0b00#2

/-- The address of the second-level descriptor in a coarse table: `d1[31:10] :: mva[19:12] :: 0b00`. -/
def coarseAddress (d1 mva : Word) : Word := d1.extractLsb' 10 22 ++ mva.extractLsb' 12 8 ++ 0b00#2

/-- The address of the second-level descriptor in a fine table: `d1[31:12] :: mva[19:10] :: 0b00`. -/
def fineAddress (d1 mva : Word) : Word := d1.extractLsb' 12 20 ++ mva.extractLsb' 10 10 ++ 0b00#2

/-- The second-level step of the walk; the flag says whether the table is a coarse one. -/
def walkSecond (coarse : Bool) (d1 d2 mva : Word) : Except MmuFault TlbEntry :=
  if d2.extractLsb' 0 2 = 0b00 then .error (.translationPage (d1.extractLsb' 5 4))
  else if d2.extractLsb' 0 2 = 0b01 then
    .ok (pageEntry d1 d2 mva .large64K (d2.extractLsb' 4 8) (d2.getLsbD 12))
  else if d2.extractLsb' 0 2 = 0b10 then .ok (pageEntry d1 d2 mva .small4K (d2.extractLsb' 4 8) false)
  else if coarse then .ok (pageEntry d1 d2 mva .small4K (fourAps (d2.extractLsb' 4 2)) (d2.getLsbD 6))
  else .ok (pageEntry d1 d2 mva .tiny1K (fourAps (d2.extractLsb' 4 2)) (d2.getLsbD 6))

/-- A read of the table walker: it takes its P attribute from bit 1 of the Auxiliary Control Register (rules R37, R95,
R96). -/
def tableRead (auxControl address : Word) : BusAccess := ⟨address, auxControl.getLsbD 1⟩

/-- The walk of the translation tables for a modified virtual address (rule R97), with the external abort the
environment gives it. -/
def walk (mem : List Host.Cell) (external : Option WalkLevel) (auxControl ttb mva : Word) :
    Except MmuFault TlbEntry :=
  if external = some .first then .error .walkFirst
  else
    let d1 := (tableRead auxControl (firstLevelAddress ttb mva)).word mem
    if d1.extractLsb' 0 2 = 0b00 then .error .translationSection
    else if d1.extractLsb' 0 2 = 0b10 then .ok (sectionEntry d1 mva)
    else if external = some .second then .error (.walkSecond (d1.extractLsb' 5 4))
    else if d1.extractLsb' 0 2 = 0b01 then
      walkSecond true d1 ((tableRead auxControl (coarseAddress d1 mva)).word mem) mva
    else walkSecond false d1 ((tableRead auxControl (fineAddress d1 mva)).word mem) mva

/-! ## Checks (rule R98) -/

/-- What a check of an access answers. -/
inductive Check where
  | pass
  | fault (f : MmuFault)
  | refused (r : Refusal)
  deriving DecidableEq, Repr

/-- Whether an access permission field allows an access of a client; AP = `0b00` with S = R = 1 is UNPREDICTABLE. -/
def apAllows (ap : BitVec 2) (sBit rBit privileged write : Bool) : Option Bool :=
  if ap = 0b00 then
    match sBit, rBit with
    | false, false => some false
    | true, false => some (privileged && !write)
    | false, true => some (!write)
    | true, true => none
  else if ap = 0b01 then some privileged
  else if ap = 0b10 then some (privileged || !write)
  else some true

/-- The domain and permission checks of an access through an entry. -/
def checkAccess (dacr control : Word) (e : TlbEntry) (mva : Word) (privileged write : Bool) : Check :=
  let access := dacr.extractLsb' (2 * e.domain.toNat) 2
  if access = 0b00 then
    .fault (if e.size = .section1M then .domainSection e.domain else .domainPage e.domain)
  else if access = 0b10 then .refused .reservedDomain
  else if access = 0b11 then .pass
  else
    match apAllows (e.ap mva) (control.getLsbD 8) (control.getLsbD 9) privileged write with
    | none => .refused .unpredictableAp
    | some true => .pass
    | some false =>
      .fault (if e.size = .section1M then .permissionSection e.domain else .permissionPage e.domain)

/-! ## The TLBs -/

/-- The entry that translates a modified virtual address, the lowest-numbered one if several do (log 11). -/
def Tlb.find (t : Tlb) (mva : Word) : Option TlbEntry := t.entries.toList.find? (fun e => e.hits mva)

/-- A table walk writes its translation where the round-robin pointer points, and the pointer moves (rule R127). -/
def Tlb.fill (t : Tlb) (e : TlbEntry) : Tlb :=
  { t with
    entries := t.entries.set t.rrPtr { e with valid := true, locked := false }
    rrPtr := if t.rrPtr = 31 then t.lockPtr else t.rrPtr + 1 }

/-- A lock operation places its translation where the lock pointer points (rules R128, R129). -/
def Tlb.lock (t : Tlb) (e : TlbEntry) : Tlb :=
  if t.lockPtr < 31 then
    { entries := t.entries.set t.lockPtr { e with valid := true, locked := true }
      lockPtr := t.lockPtr + 1
      rrPtr := 31 }
  else { t with entries := t.entries.set 31 { e with valid := true, locked := false } }

/-- A TLB with every entry changed in one way; no pointer moves. -/
def Tlb.mapEntries (f : TlbEntry → TlbEntry) (t : Tlb) : Tlb :=
  { t with entries := ⟨⟨t.entries.toList.map f⟩, by simp⟩ }

/-- Invalidate a whole TLB: locked entries are not affected (rules R121, R247). -/
def Tlb.invalidate (t : Tlb) : Tlb := t.mapEntries (fun e => { e with valid := e.valid && e.locked })

/-- Invalidate the entry that translates an address: a locked one stays locked, a hole (rules R122, R248). -/
def Tlb.invalidateEntry (t : Tlb) (mva : Word) : Tlb :=
  t.mapEntries (fun e => { e with valid := e.valid && !e.hits mva })

/-- Unlock a TLB: every entry becomes an ordinary one and the lock pointer returns to 0 (rule R252). -/
def Tlb.unlock (t : Tlb) : Tlb :=
  { t.mapEntries (fun e => { e with locked := false }) with lockPtr := 0 }

/-- One of the two TLBs. -/
def State.tlb (s : State) : Side → Tlb
  | .instruction => s.itlb
  | .data => s.dtlb

/-- The state with one of the two TLBs changed. -/
def State.setTlb (s : State) (t : Side) (v : Tlb) : State :=
  match t with
  | .instruction => { s with itlb := v }
  | .data => { s with dtlb := v }

/-! ## Translating an access (rules R86, R96) -/

/-- What the translation of an address answers: the state (a TLB may have been filled), the physical address and the
attributes; or a fault; or a refusal. -/
inductive Translated where
  | ok (s : State) (pa : Word) (a : Attributes)
  | fault (f : MmuFault)
  | refused (r : Refusal)
  deriving Repr

/-- The external abort the environment gives the walk of a fetch or of a data access. -/
def State.walkAbort (s : State) : Side → Option WalkLevel
  | .instruction => s.now.fetchWalkAbort
  | .data => s.now.dataWalkAbort

/-- The attributes with the MMU off (rule R86). -/
def attributesOff : Side → Attributes
  | .instruction => Attributes.fetchOff
  | .data => Attributes.off

/-- A translated access through an entry, once it has passed its checks. -/
def checked (s filled : State) (e : TlbEntry) (mva : Word) (write : Bool) : Translated :=
  match checkAccess s.eff.dacr s.eff.control e mva s.privileged write with
  | .pass => .ok filled (e.physical mva) e.attributes
  | .fault f => .fault f
  | .refused r => .refused r

/-- The translation of a virtual address for a fetch or a data access: the process ID remap (rule R43), then, with the
MMU on, the TLB, else the walk, then the checks. An access that faults leaves the TLB as it was (rule R345, log 11).
With the MMU off the remapped address is the physical one (rule R86, log 12). -/
def translate (side : Side) (write : Bool) (va : Word) (s : State) : Translated :=
  let mva := remap s.eff.pid va
  if s.mmuOn then
    match (s.tlb side).find mva with
    | some e => checked s s e mva write
    | none =>
      match walk s.mem (s.walkAbort side) s.eff.auxControl s.eff.ttb mva with
      | .error f => .fault f
      | .ok e => checked s (s.setTlb side ((s.tlb side).fill e)) e mva write
  else .ok s mva (attributesOff side)

end Sys2Proof.Machine
end

