-- ==== Sys2Proof/Machine/Access.lean ====
section
/-!
DEFINITION. Data accesses: alignment, translation, byte order, the imprecise aborts the environment reports, and the
loads, stores and swaps the instructions are built from (rules R70 to R82, R345 to R354).
-/

namespace Sys2Proof.Machine

/-- What an access answers: a result, a precise data abort with the address it reports, a fault or a refusal. -/
inductive Res (α : Type) where
  | ok (a : α)
  | abort (a : DataAbort) (va : Word)
  | fault (f : Fault)
  | refused (r : Refusal)
  deriving Repr

/-- The next access, with the result of the one before. -/
def Res.bind {α β : Type} (x : Res α) (f : α → Res β) : Res β :=
  match x with
  | .ok a => f a
  | .abort a va => .abort a va
  | .fault e => .fault e
  | .refused r => .refused r

/-- The end of an instruction that began in a state: a precise abort is taken from that state, so nothing of the
aborted instruction remains (rule R345). -/
def Res.finish (s : State) (x : Res State) : Answer :=
  match x with
  | .ok t => .next t
  | .abort a va => .next (s.takeDataAbort a va)
  | .fault e => .fault e
  | .refused r => .refused r

/-! ## Alignment (rules R75 to R78) -/

/-- The widths that have an alignment. -/
inductive Width where
  | half | word | double
  deriving DecidableEq, Repr

/-- The bytes of an access (rule R80). -/
def Width.bytes : Width → Nat
  | .half => 2
  | .word => 4
  | .double => 8

/-- What the alignment check finds. -/
inductive Alignment where
  | aligned
  /-- Misaligned, with checking off (rule R78). -/
  | misaligned
  /-- An alignment abort. -/
  | abort
  deriving DecidableEq, Repr

/-- The alignment check: with A = 1 every misaligned access aborts; a doubleword access at bits 2:0 = `0b100` aborts
whatever A is (rules R75, R76, R77, R193). -/
def alignment (w : Width) (va : Word) (s : State) : Alignment :=
  if va.toNat % w.bytes = 0 then .aligned
  else if s.alignmentChecked then .abort
  else if w = .double ∧ va.toNat % 8 = 4 then .abort
  else .misaligned

/-! ## One translated access -/

/-- A data access that has been translated: the state, the physical address, the P attribute and the policy of its
region. -/
structure Access where
  state : State
  pa : Word
  /-- The region's P attribute, presented with the access (rule R95). -/
  p : Bool
  policy : Policy
  deriving Repr

/-- The translation of one data access; `far` is the address a fault reports. -/
def dataTranslate (write : Bool) (far va : Word) (s : State) : Res Access :=
  match translate .data write va s with
  | .fault f => .abort (.mmu f) far
  | .refused r => .refused r
  | .ok s1 pa a =>
    match dataPolicy a s1.eff.auxControl with
    | none => .refused .unpredictableAttributes
    | some p => .ok ⟨s1, pa, a.p, p⟩

/-! ## What the environment reports of an access (rules R352 to R354, log 21) -/

/-- Whether the data cache reports a parity error on a load from a region (rule R353, log 22). -/
def State.parityStrikes (s : State) (p : Policy) : Bool := s.now.dataParity && p.isCached && s.dataCacheOn

/-- How many instructions may begin before an external abort of an access is reported: three where its region is
stall-until-complete, no bound in any other (rule R354). -/
def abortDeadline (p : Policy) : Option Nat := if p = .stallUntilComplete then some 3 else none

/-- The imprecise abort that an instruction comes to owe for its access to a region of a policy: the one of the highest
priority, an external abort before a parity error (rules R58, R352, R353, R360). -/
def State.abortOwed (s : State) (p : Policy) (load : Bool) : List OwedAbort :=
  if s.now.dataError then [⟨.external, abortDeadline p⟩]
  else if load && s.parityStrikes p then [⟨.parity, none⟩]
  else []

/-- The state that owes what an access comes to owe. -/
def State.owe (s : State) (p : Policy) (load : Bool) : State := { s with owed := s.owed ++ s.abortOwed p load }

/-- What a load leaves in its register: the value read, or bad data under an imprecise abort (rule R352). -/
def State.loaded (s : State) (p : Policy) (k : Nat) (v : Word) : Word :=
  if s.now.dataError || s.parityStrikes p then Config.badLoad s.tick k else v

/-! ## Reading and writing memory -/

/-- A byte or halfword access has been performed (rules R71, R409). -/
def State.noteSubWord (s : State) : State := { s with subWord := true }

/-- The byte address an access of a byte uses: with B = 1 byte address XOR 3 (rules R70, R72). -/
def State.byteLane (s : State) (pa : Word) : Nat := if s.bigEndian then (pa ^^^ 3#32).toNat else pa.toNat

/-- The byte address an access of a halfword uses: with B = 1 halfword address XOR 2 (rules R70, R72). -/
def State.halfLane (s : State) (pa : Word) : Nat := if s.bigEndian then (pa ^^^ 2#32).toNat else pa.toNat

/-- The list of stored words with one more (log 25). -/
def noteStored (stored : List Nat) (a : Nat) : List Nat := if stored.contains a then stored else a :: stored

/-- Whether a store writes no memory: an external error on a stall-until-complete region leaves memory as a precise
abort does (rules R345, R402, log 21). -/
def State.storeVoided (s : State) (p : Policy) : Bool := s.now.dataError && p == .stallUntilComplete

/-- The bytes an external error leaves in memory, in any other region, instead of those stored (rule R352, log 21). -/
def badBytes (tick : Nat) : Nat → List Byte → List Byte
  | _, [] => []
  | a, _ :: bs => Config.badStoreByte tick a :: badBytes tick (a + 1) bs

/-- Bytes of one aligned word stored at a physical address (rule R72), unless the store is voided. -/
def State.storeBytes (s : State) (p : Policy) (a : Nat) (bytes : List Byte) : State :=
  { s with
    mem :=
      if s.storeVoided p then s.mem
      else Memory.writeBytes s.mem a (if s.now.dataError then badBytes s.tick a bytes else bytes)
    stored := if s.storeVoided p then s.stored else noteStored s.stored (a / 4 * 4)
    dirty := s.dirty || (p.isWriteBack && s.dataCacheOn) }

/-- A word stored at a physical address. -/
def State.storeWord (s : State) (p : Policy) (pa : Word) (v : Word) : State :=
  s.storeBytes p pa.toNat (bytesOfWord v)

/-! ## Misaligned accesses with checking off (rule R78) -/

/-- A misaligned access of `n` bytes with checking off has no meaning, whatever the MMU would say of it: it is refused
(rules R78, D5, log 16). One that would pass the top of memory stops by a name of its own (D7, log 18). -/
def misalignedAccess {α : Type} (va : Word) (n : Nat) : Res α :=
  if 4294967296 < va.toNat + n then .fault .accessWraps else .refused .misalignedAccess

/-! ## Loads -/

/-- `mem32[va]` (rules R72, R280). -/
def loadWord (va : Word) (s : State) : Res (State × Word) :=
  match alignment .word va s with
  | .abort => .abort .alignment va
  | .misaligned => misalignedAccess va 4
  | .aligned =>
    (dataTranslate false va va s).bind fun a =>
      .ok (a.state.owe a.policy true, a.state.loaded a.policy 0 (Memory.readWord a.state.mem a.pa.toNat))

/-- `sext_32(mem16[va])` (rules R72, R287). -/
def loadSignedHalf (va : Word) (s : State) : Res (State × Word) :=
  match alignment .half va s with
  | .abort => .abort .alignment va
  | .misaligned => misalignedAccess va 2
  | .aligned =>
    (dataTranslate false va va s).bind fun a =>
      .ok ((a.state.owe a.policy true).noteSubWord,
        a.state.loaded a.policy 0
          ((Memory.readHalf a.state.mem (a.state.halfLane a.pa)).signExtend 32))

/-- `mem32[va]` and `mem32[va + 4]`, the two word accesses of LDRD (rules R72, R191). -/
def loadDouble (va : Word) (s : State) : Res (State × Word × Word) :=
  match alignment .double va s with
  | .abort => .abort .alignment va
  | .misaligned => misalignedAccess va 8
  | .aligned =>
    (dataTranslate false va va s).bind fun a =>
      .ok (a.state.owe a.policy true,
        a.state.loaded a.policy 0 (Memory.readWord a.state.mem a.pa.toNat),
        a.state.loaded a.policy 1 (Memory.readWord a.state.mem (a.pa + 4).toNat))

/-! ## Stores -/

/-- `mem32[va] = v` (rules R72, R281). -/
def storeWordAt (va v : Word) (s : State) : Res State :=
  match alignment .word va s with
  | .abort => .abort .alignment va
  | .misaligned => misalignedAccess va 4
  | .aligned =>
    (dataTranslate true va va s).bind fun a => .ok ((a.state.storeWord a.policy a.pa v).owe a.policy false)

/-- `mem32[va] = v` and `mem32[va + 4] = w`, the two word accesses of STRD (rules R72, R192). -/
def storeDoubleAt (va v w : Word) (s : State) : Res State :=
  match alignment .double va s with
  | .abort => .abort .alignment va
  | .misaligned => misalignedAccess va 8
  | .aligned =>
    (dataTranslate true va va s).bind fun a =>
      .ok (((a.state.storeWord a.policy a.pa v).storeWord a.policy (a.pa + 4) w).owe a.policy false)

/-! ## Swaps (rules R296, R297) -/

/-- The load and the store of SWP, one operation: the word that was there. That a data abort on either half leaves Rd and
memory unchanged (rule R296) is read of the precise aborts alone; with an imprecise one Rd takes bad data (rule R352),
and memory is unchanged only in a stall-until-complete region (DESIGN CHOICE, log 21). -/
def swapWordAt (va v : Word) (s : State) : Res (State × Word) :=
  match alignment .word va s with
  | .abort => .abort .alignment va
  | .misaligned => misalignedAccess va 4
  | .aligned =>
    (dataTranslate true va va s).bind fun a =>
      .ok ((a.state.storeWord a.policy a.pa v).owe a.policy true,
        a.state.loaded a.policy 0 (Memory.readWord a.state.mem a.pa.toNat))

/-- The load and the store of SWPB: the byte that was there, zero-extended. An imprecise abort leaves what it leaves
after SWP (DESIGN CHOICE, log 21). -/
def swapByteAt (va v : Word) (s : State) : Res (State × Word) :=
  (dataTranslate true va va s).bind fun a =>
    .ok (((a.state.storeBytes a.policy (a.state.byteLane a.pa) [byteOfWord v 0]).owe a.policy true).noteSubWord,
      a.state.loaded a.policy 0 ((Memory.read a.state.mem (a.state.byteLane a.pa)).setWidth 32))

/-! ## Preload (rules R195 to R200) -/

/-- PLD: no register, no flag, no memory. It is translated as a load is and may load the data TLB, if the environment
says so (log 42); a fault is dropped (rules R197, R199). -/
def State.preload (s : State) (va : Word) : State :=
  if s.now.pldFills then
    match translate .data false va s with
    | .ok t _ _ => t
    | .fault _ => s
    | .refused _ => s
  else s

end Sys2Proof.Machine
end

