-- ==== Sys2Proof/Machine/SystemControl.lean ====
section
/-!
DEFINITION. Coprocessor 15 as MRC and MCR reach it: its registers, its TLB and cache functions, and the landing of
its writes on fetches and data accesses (rules R31 to R46, R240 to R258).
-/

namespace Sys2Proof.Machine

/-! ## Registers -/

/-- The Control Register that a write stores: bits 6:3 read as one and ignore it (rule R32); the reserved bits, 10 and
31:14, are plain storage (A14, log 23). -/
def controlStored (v : Word) : Word := v ||| 0x00000078

/-- `CP15[CRn, CRm, opcode_2]` as MRC reads it, in program order (rules R31, R44, R241, R246). -/
def State.readCp15 (s : State) (crn crm : BitVec 4) (op2 : BitVec 3) : Option Word :=
  if crn = 0 ∧ crm = 0 ∧ op2 = 0 then some Config.mainId
  else if crn = 0 ∧ crm = 0 ∧ op2 = 1 then some Config.cacheType
  else if crn = 1 ∧ crm = 0 ∧ op2 = 0 then some s.cp15.control
  else if crn = 1 ∧ crm = 0 ∧ op2 = 1 then some s.cp15.auxControl
  else if crn = 2 ∧ crm = 0 ∧ op2 = 0 then some s.cp15.ttb
  else if crn = 3 ∧ crm = 0 ∧ op2 = 0 then some s.cp15.dacr
  else if crn = 5 ∧ crm = 0 ∧ op2 = 0 then some s.fsr
  else if crn = 6 ∧ crm = 0 ∧ op2 = 0 then some s.far
  else if crn = 9 ∧ crm = 2 ∧ op2 = 0 then some s.dcacheLock
  else if crn = 13 ∧ crm = 0 ∧ op2 = 0 then some s.cp15.pid
  else if crn = 15 ∧ crm = 1 ∧ op2 = 0 then some s.cp15.cpar
  else none

/-- An effect issued: it lands on fetches and data accesses later (rules R256, R258). -/
def State.issue (s : State) (e : Cp15Effect) : State := { s with pending := s.pending ++ [e] }

/-- A write of a storage register that fetches, data accesses or coprocessor checks depend on (rule R242). -/
def State.writeCp15Register (s : State) (crn crm : BitVec 4) (op2 : BitVec 3) (v : Word) : Option (Res State) :=
  if crn = 1 ∧ crm = 0 ∧ op2 = 0 then
    some (
      -- M = 0 with C = 1 is the illegal combination of rule R88
      if v.getLsbD 0 = false ∧ v.getLsbD 2 = true then .refused .illegalCacheEnable
      -- a change of B after a sub-word access (rule R409)
      else if s.subWord = true ∧ v.getLsbD 7 ≠ s.cp15.control.getLsbD 7 then .refused .byteOrderChange
      else
        .ok ({ s with cp15 := { s.cp15 with control := controlStored v } }.issue (.setControl (controlStored v))))
  else if crn = 1 ∧ crm = 0 ∧ op2 = 1 then
    some (.ok ({ s with cp15 := { s.cp15 with auxControl := v } }.issue (.setAuxControl v)))
  else if crn = 2 ∧ crm = 0 ∧ op2 = 0 then
    some (.ok ({ s with cp15 := { s.cp15 with ttb := v } }.issue (.setTtb v)))
  else if crn = 3 ∧ crm = 0 ∧ op2 = 0 then
    some (.ok ({ s with cp15 := { s.cp15 with dacr := v } }.issue (.setDacr v)))
  else if crn = 5 ∧ crm = 0 ∧ op2 = 0 then some (.ok { s with fsr := v })
  else if crn = 6 ∧ crm = 0 ∧ op2 = 0 then some (.ok { s with far := v })
  else if crn = 9 ∧ crm = 2 ∧ op2 = 0 then some (.ok { s with dcacheLock := v })
  else if crn = 13 ∧ crm = 0 ∧ op2 = 0 then
    some (.ok ({ s with cp15 := { s.cp15 with pid := v } }.issue (.setPid v)))
  else if crn = 15 ∧ crm = 1 ∧ op2 = 0 then
    some (.ok ({ s with cp15 := { s.cp15 with cpar := v } }.issue (.setCpar v)))
  else none

/-! ## TLB functions (rules R247 to R252) -/

/-- The domain and permission checks of a lock function, on the registers in program order: a fault is the lock abort
(rules R124, R346). -/
def State.checkForLock (s : State) (va : Word) (e : TlbEntry) : Res TlbEntry :=
  match checkAccess s.cp15.dacr s.cp15.control e (remap s.cp15.pid va) s.privileged false with
  | .pass => .ok e
  | .fault _ => .abort .lock va
  | .refused r => .refused r

/-- The walk of a lock function and its checks, on the registers in program order: a fault is the lock abort (rules
R124, R346, log 35). -/
def State.walkForLock (s : State) (va : Word) : Res TlbEntry :=
  match walk s.mem s.now.dataWalkAbort s.cp15.auxControl s.cp15.ttb (remap s.cp15.pid va) with
  | .error _ => .abort .lock va
  | .ok e => s.checkForLock va e

/-- Translate and lock (rules R249 to R251): the translation that the walk finds lands later. With the MMU off, on the
Control Register in program order, no MMU fault can arise (rules R86, R348) and whether the function works is not known:
it requires the MMU on and is refused (note N10 of 91_not_in_source.md, log 35). -/
def State.translateAndLock (s : State) (t : Side) (va : Word) : Res State :=
  if s.cp15.control.getLsbD 0 then
    (s.walkForLock va).bind fun e => .ok (s.issue (.lock t (remap s.cp15.pid va) e))
  else .refused .lockMmuOff

/-- The TLB functions of registers 8 and 10 (rules R42, R252). -/
def State.tlbFunction (s : State) (crn crm : BitVec 4) (op2 : BitVec 3) (v : Word) : Option (Res State) :=
  if crn = 8 ∧ crm = 7 ∧ op2 = 0 then some (.ok (s.issue .invalidateBoth))
  else if crn = 8 ∧ crm = 5 ∧ op2 = 0 then some (.ok (s.issue (.invalidate .instruction)))
  else if crn = 8 ∧ crm = 5 ∧ op2 = 1 then
    some (.ok (s.issue (.invalidateEntry .instruction (remap s.cp15.pid v))))
  else if crn = 8 ∧ crm = 6 ∧ op2 = 0 then some (.ok (s.issue (.invalidate .data)))
  else if crn = 8 ∧ crm = 6 ∧ op2 = 1 then some (.ok (s.issue (.invalidateEntry .data (remap s.cp15.pid v))))
  else if crn = 10 ∧ crm = 4 ∧ op2 = 0 then some (s.translateAndLock .instruction v)
  else if crn = 10 ∧ crm = 4 ∧ op2 = 1 then some (.ok (s.issue (.unlock .instruction)))
  else if crn = 10 ∧ crm = 8 ∧ op2 = 0 then some (s.translateAndLock .data v)
  else if crn = 10 ∧ crm = 8 ∧ op2 = 1 then some (.ok (s.issue (.unlock .data)))
  else none

/-! ## Landing (rules R256 to R258, D10) -/

/-- One effect lands. A lock that finds its translation resident is UNPREDICTABLE (rule R123): no state. -/
def Cp15Effect.apply (e : Cp15Effect) (s : State) : Option State :=
  match e with
  | .setControl v => some { s with eff := { s.eff with control := v } }
  | .setAuxControl v => some { s with eff := { s.eff with auxControl := v } }
  | .setTtb v => some { s with eff := { s.eff with ttb := v } }
  | .setDacr v => some { s with eff := { s.eff with dacr := v } }
  | .setPid v => some { s with eff := { s.eff with pid := v } }
  | .setCpar v => some { s with eff := { s.eff with cpar := v } }
  | .invalidateBoth => some { s with itlb := s.itlb.invalidate, dtlb := s.dtlb.invalidate }
  | .invalidate t => some (s.setTlb t (s.tlb t).invalidate)
  | .invalidateEntry t mva => some (s.setTlb t ((s.tlb t).invalidateEntry mva))
  | .lock t mva e =>
    if ((s.tlb t).find mva).isSome then none else some (s.setTlb t ((s.tlb t).lock e))
  | .fill t mva e =>
    some (if ((s.tlb t).find mva).isSome then s else s.setTlb t ((s.tlb t).fill e))
  | .unlock t => some (s.setTlb t (s.tlb t).unlock)

/-- At most `n` pending effects land, oldest first (rules R114, R254). -/
def landPending : Nat → State → Option State
  | 0, s => some s
  | n + 1, s =>
    match s.pending with
    | [] => some s
    | e :: rest =>
      match e.apply { s with pending := rest } with
      | none => none
      | some t => landPending n t

/-! ## Cache and write-buffer functions (rules R131, R253; log 14) -/

/-- One TLB as the functions issued so far leave it, in program order (rules R114, R254, R401). No TLB where a lock
among them finds its translation resident. -/
def State.tlbInOrder (s : State) (t : Side) : Option Tlb :=
  (landPending s.pending.length s).map fun u => u.tlb t

/-- The translation of a line that the instruction cache fetches and locks, in program order: with the MMU off there is
nothing to do, for no MMU fault can arise (rule R86); a resident entry is checked; else a walk's translation fills the
instruction TLB, when it lands. -/
def State.translateLine (s : State) (va : Word) (l : Tlb) : Res State :=
  if s.cp15.control.getLsbD 0 then
    match l.find (remap s.cp15.pid va) with
    | some e => (s.checkForLock va e).bind fun _ => .ok s
    | none => (s.walkForLock va).bind fun e => .ok (s.issue (.fill .instruction (remap s.cp15.pid va) e))
  else .ok s

/-- Fetch and lock an instruction cache line: no effect the state holds but on the instruction TLB; a translation,
permission or external fault is the lock abort (rules R131, R346). -/
def State.lockCacheLine (s : State) (va : Word) : Res State :=
  match s.tlbInOrder .instruction with
  | none => .refused .lockResident
  | some l => (s.translateLine va l).bind fun t => if s.now.dataError then .abort .lock va else .ok t

/-- The cache functions of registers 7 and 9. The caches are transparent (log 26), so those that lose no data change
nothing; those that could discard lines not yet written to memory are refused while such lines may exist. -/
def State.cacheFunction (s : State) (crn crm : BitVec 4) (op2 : BitVec 3) (v : Word) : Option (Res State) :=
  if crn = 7 ∧ ((crm = 7 ∧ op2 = 0) ∨ (crm = 6 ∧ op2 = 0) ∨ (crm = 6 ∧ op2 = 1)) then
    some (if s.dirty then .refused .discardsDirtyData else .ok s)
  else if crn = 7 ∧ crm = 5 ∧ (op2 = 0 ∨ op2 = 1 ∨ op2 = 6) then some (.ok s)
  else if crn = 7 ∧ crm = 10 ∧ (op2 = 1 ∨ op2 = 4) then some (.ok s)
  else if crn = 7 ∧ crm = 2 ∧ op2 = 5 then some (.refused .cacheAllocate)
  else if crn = 9 ∧ crm = 1 ∧ op2 = 0 then some (s.lockCacheLine v)
  else if crn = 9 ∧ crm = 1 ∧ op2 = 1 then some (.ok s)
  else if crn = 9 ∧ crm = 2 ∧ op2 = 1 then some (.ok s)
  else none

/-- An MCR to coprocessor 15 with the value of its register (rule R242). -/
def State.writeCp15 (s : State) (crn crm : BitVec 4) (op2 : BitVec 3) (v : Word) : Res State :=
  match s.writeCp15Register crn crm op2 v with
  | some r => r
  | none =>
    match s.tlbFunction crn crm op2 v with
    | some r => r
    | none =>
      match s.cacheFunction crn crm op2 v with
      | some r => r
      | none => .refused .cp15Unlisted

/-! ## CPWAIT (rules R255, R256; log 8) -/

/-- `MRC p15, 0, R0, c2, c0, 0`, the first instruction of CPWAIT. -/
def cpwaitMrc : Instr := .mrc .al 2 0 0 0

/-- `MOV R0, R0`, the second. -/
def cpwaitMov : Instr := .movShiftImm .al false 0 0 .lsl 0

/-- `SUB PC, PC, #4`, the third. -/
def cpwaitSub : Instr := .subImm .al false 15 15 0 4

/-- Whether an instruction completes CPWAIT in the state before it. -/
def completesCpwait (i : Instr) (s : State) : Bool := decide (i = cpwaitSub) && decide (s.cpwait = .afterMov)

/-- How far CPWAIT has come after an instruction that does not complete it, from the state before it. -/
def cpwaitStage (i : Instr) (s : State) : CpwaitStage :=
  if i = cpwaitMrc ∧ s.privileged = true then .afterMrc
  else if i = cpwaitMov ∧ s.cpwait = .afterMrc then .afterMov
  else .idle

/-- The end of an instruction: when CPWAIT completes, every pending effect lands (rule R256). The first state is the
one before the instruction, the second the one after. -/
def settle (i : Instr) (s t : State) : Option State :=
  if completesCpwait i s then landPending t.pending.length { t with cpwait := .idle }
  else some { t with cpwait := cpwaitStage i s }

end Sys2Proof.Machine
end

