-- ==== Sys2Proof/Machine/Coprocessor.lean ====
section
/-!
DEFINITION. Coprocessor transfers: MCR and MRC to coprocessor 15, MCRR and MRRC to any coprocessor but 0 (rules R201 to
R203, R240 to R254).
-/

namespace Sys2Proof.Machine

/-- Coprocessor 15 is reached only in a privileged mode; in User mode an access takes the Undefined Instruction
exception (rules R46, R240). -/
def privilegedAccess (s : State) (body : Answer) : Answer :=
  if s.privileged then body else .next s.takeUndefined

/-- MCR to coprocessor 15 (rule R242): Rd = R15 is UNPREDICTABLE. -/
def execMcr (c : Cond) (crn : BitVec 4) (rd : Reg) (op2 : BitVec 3) (crm : BitVec 4) (s : State) : Answer :=
  conditional c s (privilegedAccess s (predictably (.mcr c crn rd op2 crm)
    (((s.writeCp15 crn crm op2 (s.reg rd)).bind fun t => .ok t.advance).finish s)))

/-- MRC from coprocessor 15 (rule R241); with Rd = R15 the top four bits go to N, Z, C and V (log 32). -/
def execMrc (c : Cond) (crn : BitVec 4) (rd : Reg) (op2 : BitVec 3) (crm : BitVec 4) (s : State) : Answer :=
  conditional c s (privilegedAccess s (
    match s.readCp15 crn crm op2 with
    | none => .refused .cp15Unlisted
    | some v =>
      if rd = Reg.pc then .next (s.setCpsr (mergeMask 0xF0000000 s.cpsr v)).advance
      else .next (s.setReg rd v).advance))

/-- MCRR to a coprocessor other than 0: the Undefined Instruction exception (rules R201, R203, D21). -/
def execMcrr (c : Cond) (_rn _rd _cp _op _crm : BitVec 4) (s : State) : Answer :=
  conditional c s (.next s.takeUndefined)

/-- MRRC from a coprocessor other than 0: the Undefined Instruction exception (rules R202, R203, D21). -/
def execMrrc (c : Cond) (_rn _rd _cp _op _crm : BitVec 4) (s : State) : Answer :=
  conditional c s (.next s.takeUndefined)

end Sys2Proof.Machine
end

