-- ==== Sys2Proof/Machine/DataProcessing.lean ====
section
/-!
DEFINITION. Data processing: MOV, ADD, SUB and ORR, each with an immediate, a register shifted by an immediate and a
register shifted by a register (rules R270 to R274).
-/

namespace Sys2Proof.Machine

/-- The end of a data-processing instruction: its result written, with the flags if S = 1; a write of R15 transfers
control, and with S = 1 returns from an exception (rules R270 to R274). -/
def State.dataResult (s : State) (setFlags : Bool) (rd : Reg) (result cpsr : Word) : Answer :=
  if rd = Reg.pc then
    if setFlags then s.exceptionReturn result else s.dataBranch result
  else .next ((s.setReg rd result).setCpsr (if setFlags then cpsr else s.cpsr)).advance

/-- MOV (rule R270). -/
def State.move (s : State) (setFlags : Bool) (rd : Reg) (op : Shifted) : Answer :=
  s.dataResult setFlags rd op.value (withNZC s.cpsr op.value op.carry)

/-- ADD (rule R271). -/
def State.add (s : State) (setFlags : Bool) (rn rd : Reg) (op : Shifted) : Answer :=
  let a := s.reg rn
  s.dataResult setFlags rd (a + op.value)
    (withNZCV s.cpsr (a + op.value) (addCarry a op.value) (addOverflow a op.value))

/-- SUB (rule R273). -/
def State.sub (s : State) (setFlags : Bool) (rn rd : Reg) (op : Shifted) : Answer :=
  let a := s.reg rn
  s.dataResult setFlags rd (a - op.value)
    (withNZCV s.cpsr (a - op.value) (subCarry a op.value) (subOverflow a op.value))

/-- ORR (rule R272). -/
def State.orr (s : State) (setFlags : Bool) (rn rd : Reg) (op : Shifted) : Answer :=
  let r := s.reg rn ||| op.value
  s.dataResult setFlags rd r (withNZC s.cpsr r op.carry)

/-- The immediate operand in a state (rule R148, form (a)). -/
def State.immediate (s : State) (rot : BitVec 4) (imm : BitVec 8) : Shifted := immediateOperand rot imm s.c

/-- The register shifted by an immediate in a state (rule R148, form (b)). -/
def State.shiftedByImmediate (s : State) (n : BitVec 5) (sh : Shift) (rm : Reg) : Shifted :=
  shiftByImmediate sh (s.reg rm) n s.c

/-- The register shifted by a register in a state (rule R148, form (c)). -/
def State.shiftedByRegister (s : State) (rs : Reg) (sh : Shift) (rm : Reg) : Shifted :=
  shiftByRegister sh (s.reg rm) (s.reg rs) s.c

/-- MOV with an immediate (rule R270). -/
def execMovImm (c : Cond) (f : Bool) (rd : Reg) (rot : BitVec 4) (imm : BitVec 8) (s : State) : Answer :=
  conditional c s (s.move f rd (s.immediate rot imm))

/-- MOV with a register shifted by an immediate (rule R270). -/
def execMovShiftImm (c : Cond) (f : Bool) (rd : Reg) (n : BitVec 5) (sh : Shift) (rm : Reg) (s : State) : Answer :=
  conditional c s (s.move f rd (s.shiftedByImmediate n sh rm))

/-- MOV with a register shifted by a register (rule R270). -/
def execMovShiftReg (c : Cond) (f : Bool) (rd rs : Reg) (sh : Shift) (rm : Reg) (s : State) : Answer :=
  conditional c s (predictably (.movShiftReg c f rd rs sh rm) (s.move f rd (s.shiftedByRegister rs sh rm)))

/-- ADD with an immediate (rule R271). -/
def execAddImm (c : Cond) (f : Bool) (rn rd : Reg) (rot : BitVec 4) (imm : BitVec 8) (s : State) : Answer :=
  conditional c s (s.add f rn rd (s.immediate rot imm))

/-- ADD with a register shifted by an immediate (rule R271). -/
def execAddShiftImm (c : Cond) (f : Bool) (rn rd : Reg) (n : BitVec 5) (sh : Shift) (rm : Reg) (s : State) :
    Answer :=
  conditional c s (s.add f rn rd (s.shiftedByImmediate n sh rm))

/-- ADD with a register shifted by a register (rule R271). -/
def execAddShiftReg (c : Cond) (f : Bool) (rn rd rs : Reg) (sh : Shift) (rm : Reg) (s : State) : Answer :=
  conditional c s (predictably (.addShiftReg c f rn rd rs sh rm) (s.add f rn rd (s.shiftedByRegister rs sh rm)))

/-- SUB with an immediate (rule R273). -/
def execSubImm (c : Cond) (f : Bool) (rn rd : Reg) (rot : BitVec 4) (imm : BitVec 8) (s : State) : Answer :=
  conditional c s (s.sub f rn rd (s.immediate rot imm))

/-- SUB with a register shifted by an immediate (rule R273). -/
def execSubShiftImm (c : Cond) (f : Bool) (rn rd : Reg) (n : BitVec 5) (sh : Shift) (rm : Reg) (s : State) :
    Answer :=
  conditional c s (s.sub f rn rd (s.shiftedByImmediate n sh rm))

/-- SUB with a register shifted by a register (rule R273). -/
def execSubShiftReg (c : Cond) (f : Bool) (rn rd rs : Reg) (sh : Shift) (rm : Reg) (s : State) : Answer :=
  conditional c s (predictably (.subShiftReg c f rn rd rs sh rm) (s.sub f rn rd (s.shiftedByRegister rs sh rm)))

/-- ORR with an immediate (rule R272). -/
def execOrrImm (c : Cond) (f : Bool) (rn rd : Reg) (rot : BitVec 4) (imm : BitVec 8) (s : State) : Answer :=
  conditional c s (s.orr f rn rd (s.immediate rot imm))

/-- ORR with a register shifted by an immediate (rule R272). -/
def execOrrShiftImm (c : Cond) (f : Bool) (rn rd : Reg) (n : BitVec 5) (sh : Shift) (rm : Reg) (s : State) :
    Answer :=
  conditional c s (s.orr f rn rd (s.shiftedByImmediate n sh rm))

/-- ORR with a register shifted by a register (rule R272). -/
def execOrrShiftReg (c : Cond) (f : Bool) (rn rd rs : Reg) (sh : Shift) (rm : Reg) (s : State) : Answer :=
  conditional c s (predictably (.orrShiftReg c f rn rd rs sh rm) (s.orr f rn rd (s.shiftedByRegister rs sh rm)))

end Sys2Proof.Machine
end

