-- ==== Sys2Proof/Machine/LoadStore.lean ====
section
/-!
DEFINITION. Loads, stores, swaps and the preload hint: LDR, STR, LDRSH, LDRD, STRD, SWP, SWPB, PLD, in every addressing
form (rules R191 to R200, R280 to R288, R296, R297).
-/

namespace Sys2Proof.Machine

/-- LDR at an address, with its writeback: a load to R15 is a transfer of control (rule R280). -/
def State.loadRegister (s : State) (rn rd : Reg) (a : Address) : Answer :=
  match loadWord a.address s with
  | .ok (t, v) =>
    if rd = Reg.pc then (t.writeBack rn a).exchangeBranch v
    else .next ((t.writeBack rn a).setReg rd v).advance
  | .abort e va => .next (s.takeDataAbort e va)
  | .fault e => .fault e
  | .refused r => .refused r

/-- The value STR stores: R15 is implementation-defined, `A + 8` or `A + 12` (rule R281, log 33). -/
def State.storeValue (s : State) (rd : Reg) : Word :=
  if rd = Reg.pc then s.pc + (if Config.storePcPlus12 then 12 else 8) else s.reg rd

/-- STR at an address, with its writeback (rule R281). -/
def State.storeRegister (s : State) (rn rd : Reg) (a : Address) : Answer :=
  ((storeWordAt a.address (s.storeValue rd) s).bind fun t => .ok (t.writeBack rn a).advance).finish s

/-- LDRSH at an address, with its writeback (rule R287). -/
def State.loadHalfRegister (s : State) (rn rd : Reg) (a : Address) : Answer :=
  ((loadSignedHalf a.address s).bind fun (t, v) => .ok ((t.writeBack rn a).setReg rd v).advance).finish s

/-- LDRD at an address, with its writeback: Rd and Rd + 1 (rule R191). -/
def State.loadPair (s : State) (rn rd : Reg) (a : Address) : Answer :=
  ((loadDouble a.address s).bind fun (t, v, w) =>
    .ok (((t.setReg rd v).setReg (rd + 1) w).writeBack rn a).advance).finish s

/-- STRD at an address, with its writeback: Rd and Rd + 1 (rule R192). -/
def State.storePair (s : State) (rn rd : Reg) (a : Address) : Answer :=
  ((storeDoubleAt a.address (s.reg rd) (s.reg (rd + 1)) s).bind fun t => .ok (t.writeBack rn a).advance).finish s

/-- LDR with an immediate offset (rule R280). -/
def execLdrImm (c : Cond) (m : Index) (u : Bool) (rn rd : Reg) (off : BitVec 12) (s : State) : Answer :=
  conditional c s (predictably (.ldrImm c m u rn rd off)
    (s.loadRegister rn rd (immediateAddress s m u rn off)))

/-- LDR with a scaled register offset (rule R280). -/
def execLdrReg (c : Cond) (m : Index) (u : Bool) (rn rd : Reg) (n : BitVec 5) (sh : Shift) (rm : Reg) (s : State) :
    Answer :=
  conditional c s (predictably (.ldrReg c m u rn rd n sh rm)
    (s.loadRegister rn rd (scaledAddress s m u rn n sh rm)))

/-- STR with an immediate offset (rule R281). -/
def execStrImm (c : Cond) (m : Index) (u : Bool) (rn rd : Reg) (off : BitVec 12) (s : State) : Answer :=
  conditional c s (predictably (.strImm c m u rn rd off)
    (s.storeRegister rn rd (immediateAddress s m u rn off)))

/-- STR with a scaled register offset (rule R281). -/
def execStrReg (c : Cond) (m : Index) (u : Bool) (rn rd : Reg) (n : BitVec 5) (sh : Shift) (rm : Reg) (s : State) :
    Answer :=
  conditional c s (predictably (.strReg c m u rn rd n sh rm)
    (s.storeRegister rn rd (scaledAddress s m u rn n sh rm)))

/-- LDRSH with an immediate offset (rule R287). -/
def execLdrshImm (c : Cond) (m : Index) (u : Bool) (rn rd : Reg) (off : BitVec 8) (s : State) : Answer :=
  conditional c s (predictably (.ldrshImm c m u rn rd off)
    (s.loadHalfRegister rn rd (immediateAddress s m u rn off)))

/-- LDRSH with a register offset (rule R287). -/
def execLdrshReg (c : Cond) (m : Index) (u : Bool) (rn rd rm : Reg) (s : State) : Answer :=
  conditional c s (predictably (.ldrshReg c m u rn rd rm)
    (s.loadHalfRegister rn rd (registerAddress s m u rn rm)))

/-- LDRD with an immediate offset (rule R191). -/
def execLdrdImm (c : Cond) (m : Index) (u : Bool) (rn rd : Reg) (off : BitVec 8) (s : State) : Answer :=
  conditional c s (predictably (.ldrdImm c m u rn rd off)
    (s.loadPair rn rd (immediateAddress s m u rn off)))

/-- LDRD with a register offset (rule R191). -/
def execLdrdReg (c : Cond) (m : Index) (u : Bool) (rn rd rm : Reg) (s : State) : Answer :=
  conditional c s (predictably (.ldrdReg c m u rn rd rm)
    (s.loadPair rn rd (registerAddress s m u rn rm)))

/-- STRD with an immediate offset (rule R192). -/
def execStrdImm (c : Cond) (m : Index) (u : Bool) (rn rd : Reg) (off : BitVec 8) (s : State) : Answer :=
  conditional c s (predictably (.strdImm c m u rn rd off)
    (s.storePair rn rd (immediateAddress s m u rn off)))

/-- STRD with a register offset (rule R192). -/
def execStrdReg (c : Cond) (m : Index) (u : Bool) (rn rd rm : Reg) (s : State) : Answer :=
  conditional c s (predictably (.strdReg c m u rn rd rm)
    (s.storePair rn rd (registerAddress s m u rn rm)))

/-- SWP (rule R296). -/
def execSwp (c : Cond) (rn rd rm : Reg) (s : State) : Answer :=
  conditional c s (predictably (.swp c rn rd rm)
    (((swapWordAt (s.reg rn) (s.reg rm) s).bind fun (t, v) => .ok (t.setReg rd v).advance).finish s))

/-- SWPB (rule R297). -/
def execSwpb (c : Cond) (rn rd rm : Reg) (s : State) : Answer :=
  conditional c s (predictably (.swpb c rn rd rm)
    (((swapByteAt (s.reg rn) (s.reg rm) s).bind fun (t, v) => .ok (t.setReg rd v).advance).finish s))

/-- PLD with an immediate offset (rules R195 to R200). -/
def execPldImm (u : Bool) (rn : Reg) (off : BitVec 12) (s : State) : Answer :=
  .next (s.preload (immediateAddress s .offset u rn off).address).advance

/-- PLD with a scaled register offset (rules R195 to R200). -/
def execPldReg (u : Bool) (rn : Reg) (n : BitVec 5) (sh : Shift) (rm : Reg) (s : State) : Answer :=
  predictably (.pldReg u rn n sh rm) (.next (s.preload (scaledAddress s .offset u rn n sh rm).address).advance)

end Sys2Proof.Machine
end

