-- ==== Sys2Proof/Machine/Multiply.lean ====
section
/-!
DEFINITION. MLA and the DSP-enhanced arithmetic: SMLAxy, SMLAWy, SMULWy, SMLALxy, SMULxy, QADD, QSUB, QDADD, QDSUB,
and CLZ (rules R181 to R190, R290, R304).
-/

namespace Sys2Proof.Machine

/-- A result written to a register, the program counter advanced. -/
def State.writeResult (s : State) (rd : Reg) (result : Word) : Answer := .next (s.setReg rd result).advance

/-- A result written to a register, with Q set if it overflowed or saturated (rule R27). -/
def State.writeSticky (s : State) (rd : Reg) (result : Word) (overflowed : Bool) : Answer :=
  .next ((s.setReg rd result).setCpsr (withQ s.cpsr overflowed)).advance

/-- An exact sum written modulo 2^32, with Q set if it does not fit (rules R182, R183). -/
def State.writeWrapped (s : State) (rd : Reg) (t : Int) : Answer :=
  s.writeSticky rd (BitVec.ofInt 32 t) (!fits32 t)

/-- An exact value written saturated, with Q set if it was clamped here or before (rules R187 to R190). -/
def State.writeSaturated (s : State) (rd : Reg) (t : Int) (clampedBefore : Bool) : Answer :=
  s.writeSticky rd (BitVec.ofInt 32 (sat32 t)) (clampedBefore || !fits32 t)

/-- MLA (rule R290): the low 32 bits of the product plus the addend; with S = 1 N and Z. -/
def execMla (c : Cond) (f : Bool) (rd rn rs rm : Reg) (s : State) : Answer :=
  conditional c s (predictably (.mla c f rd rn rs rm)
    (let r := s.reg rm * s.reg rs + s.reg rn
     .next ((s.setReg rd r).setCpsr (if f then withNZ s.cpsr r else s.cpsr)).advance))

/-- SMLA<x><y> (rule R182). -/
def execSmla (c : Cond) (rd rn rs : Reg) (y x : Half) (rm : Reg) (s : State) : Answer :=
  conditional c s (predictably (.smla c rd rn rs y x rm)
    (s.writeWrapped rd (halfProduct x (s.reg rm) y (s.reg rs) + (s.reg rn).toInt)))

/-- SMLAW<y> (rule R183): bits 47:16 of the product, plus the addend. -/
def execSmlaw (c : Cond) (rd rn rs : Reg) (y : Half) (rm : Reg) (s : State) : Answer :=
  conditional c s (predictably (.smlaw c rd rn rs y rm)
    (s.writeWrapped rd (wordHalfProduct (s.reg rm) y (s.reg rs) / 65536 + (s.reg rn).toInt)))

/-- SMULW<y> (rule R186): bits 47:16 of the product; no flag. -/
def execSmulw (c : Cond) (rd rs : Reg) (y : Half) (rm : Reg) (s : State) : Answer :=
  conditional c s (predictably (.smulw c rd rs y rm)
    (s.writeResult rd (BitVec.ofInt 32 (wordHalfProduct (s.reg rm) y (s.reg rs) / 65536))))

/-- SMLAL<x><y> (rule R184): a 64-bit sum modulo 2^64; no flag. -/
def execSmlal (c : Cond) (rdHi rdLo rs : Reg) (y x : Half) (rm : Reg) (s : State) : Answer :=
  conditional c s (predictably (.smlal c rdHi rdLo rs y x rm)
    (let a : BitVec 64 := s.reg rdHi ++ s.reg rdLo
     let t : BitVec 64 := a + BitVec.ofInt 64 (halfProduct x (s.reg rm) y (s.reg rs))
     .next ((s.setReg rdLo (t.extractLsb' 0 32)).setReg rdHi (t.extractLsb' 32 32)).advance))

/-- SMUL<x><y> (rule R185); no flag. -/
def execSmul (c : Cond) (rd rs : Reg) (y x : Half) (rm : Reg) (s : State) : Answer :=
  conditional c s (predictably (.smul c rd rs y x rm)
    (s.writeResult rd (BitVec.ofInt 32 (halfProduct x (s.reg rm) y (s.reg rs)))))

/-- QADD (rule R187). -/
def execQadd (c : Cond) (rn rd rm : Reg) (s : State) : Answer :=
  conditional c s (predictably (.qadd c rn rd rm)
    (s.writeSaturated rd ((s.reg rm).toInt + (s.reg rn).toInt) false))

/-- QSUB (rule R189). -/
def execQsub (c : Cond) (rn rd rm : Reg) (s : State) : Answer :=
  conditional c s (predictably (.qsub c rn rd rm)
    (s.writeSaturated rd ((s.reg rm).toInt - (s.reg rn).toInt) false))

/-- QDADD (rule R188): Rn is doubled and saturated first. -/
def execQdadd (c : Cond) (rn rd rm : Reg) (s : State) : Answer :=
  conditional c s (predictably (.qdadd c rn rd rm)
    (let d := 2 * (s.reg rn).toInt
     s.writeSaturated rd ((s.reg rm).toInt + sat32 d) (!fits32 d)))

/-- QDSUB (rule R190): Rn is doubled and saturated first. -/
def execQdsub (c : Cond) (rn rd rm : Reg) (s : State) : Answer :=
  conditional c s (predictably (.qdsub c rn rd rm)
    (let d := 2 * (s.reg rn).toInt
     s.writeSaturated rd ((s.reg rm).toInt - sat32 d) (!fits32 d)))

/-- CLZ (rule R304); no flag. -/
def execClz (c : Cond) (rd rm : Reg) (s : State) : Answer :=
  conditional c s (predictably (.clz c rd rm)
    (s.writeResult rd (BitVec.ofNat 32 (leadingZeros (s.reg rm)))))

end Sys2Proof.Machine
end

