-- ==== Sys2Proof/Machine/Status.lean ====
section
/-!
DEFINITION. Status register access: MRS and MSR (rules R306, R307).
-/

namespace Sys2Proof.Machine

/-- MRS (rule R306): the SPSR of User or System mode does not exist. -/
def execMrs (c : Cond) (r : Bool) (rd : Reg) (s : State) : Answer :=
  conditional c s (predictably (.mrs c r rd)
    (if r then
      match s.spsr s.mode with
      | none => .refused .noSpsr
      | some v => .next (s.setReg rd v).advance
    else .next (s.setReg rd s.cpsr).advance))

/-- The CPSR with the bytes a field mask selects replaced; in User mode only the flags byte can be (rule R307). -/
def State.mergedCpsr (s : State) (mask : BitVec 4) (v : Word) : Word :=
  mergeMask (fieldMask (if s.privileged then mask else mask &&& 0b1000)) s.cpsr v

/-- MSR to the CPSR (rule R307): a mode number that names no mode and a change of T are UNPREDICTABLE. -/
def State.writeCpsrFields (s : State) (mask : BitVec 4) (v : Word) : Answer :=
  if s.privileged = true ∧ mask.getLsbD 0 = true ∧ psrMode (s.mergedCpsr mask v) = none then
    .refused .unpredictableMode
  else if (s.mergedCpsr mask v).getLsbD 5 ≠ s.cpsr.getLsbD 5 then .refused .unpredictableTChange
  else .next (s.setCpsr (s.mergedCpsr mask v)).advance

/-- MSR to the SPSR of the current mode (rule R307): bit 5 of the SPSR is written like any other, since the sentence on
changing the T bit is read of the CPSR alone (DESIGN CHOICE, log 44). -/
def State.writeSpsrFields (s : State) (mask : BitVec 4) (v : Word) : Answer :=
  match s.spsr s.mode with
  | none => .refused .noSpsr
  | some old => .next (s.setSpsr s.mode (mergeMask (fieldMask mask) old v)).advance

/-- MSR of a register (rule R307). -/
def execMsrReg (c : Cond) (r : Bool) (mask : BitVec 4) (rm : Reg) (s : State) : Answer :=
  conditional c s (if r then s.writeSpsrFields mask (s.reg rm) else s.writeCpsrFields mask (s.reg rm))

/-- MSR of an immediate, rotated as an immediate operand is (rules R148, R307). -/
def execMsrImm (c : Cond) (r : Bool) (mask rot : BitVec 4) (imm : BitVec 8) (s : State) : Answer :=
  conditional c s
    (if r then s.writeSpsrFields mask (immediateOperand rot imm s.c).value
     else s.writeCpsrFields mask (immediateOperand rot imm s.c).value)

end Sys2Proof.Machine
end

