-- ==== Sys2Proof/Machine/Dispatch.lean ====
section
/-!
DEFINITION. The dispatch: one arm for each constructor of `Instr`, in the opcode table's order.
-/

namespace Sys2Proof.Machine

def exec (i : Instr) (s : State) : Host.Outcome State Fault Refusal :=
  match i with
  | .pldImm u rn offset => Sys2Proof.Machine.execPldImm u rn offset s
  | .pldReg u rn shiftImm shift rm => Sys2Proof.Machine.execPldReg u rn shiftImm shift rm s
  | .blxImm h imm => Sys2Proof.Machine.execBlxImm h imm s
  | .mia c rs rm => Sys2Proof.Machine.execMia c rs rm s
  | .miaph c rs rm => Sys2Proof.Machine.execMiaph c rs rm s
  | .miabb c rs rm => Sys2Proof.Machine.execMiabb c rs rm s
  | .miabt c rs rm => Sys2Proof.Machine.execMiabt c rs rm s
  | .miatb c rs rm => Sys2Proof.Machine.execMiatb c rs rm s
  | .miatt c rs rm => Sys2Proof.Machine.execMiatt c rs rm s
  | .mar c rdHi rdLo => Sys2Proof.Machine.execMar c rdHi rdLo s
  | .mra c rdHi rdLo => Sys2Proof.Machine.execMra c rdHi rdLo s
  | .mcrr c rn rd cp op crm => Sys2Proof.Machine.execMcrr c rn rd cp op crm s
  | .mrrc c rn rd cp op crm => Sys2Proof.Machine.execMrrc c rn rd cp op crm s
  | .mcr c crn rd op2 crm => Sys2Proof.Machine.execMcr c crn rd op2 crm s
  | .mrc c crn rd op2 crm => Sys2Proof.Machine.execMrc c crn rd op2 crm s
  | .b c imm => Sys2Proof.Machine.execB c imm s
  | .bl c imm => Sys2Proof.Machine.execBl c imm s
  | .swi c imm => Sys2Proof.Machine.execSwi c imm s
  | .ldrImm c m u rn rd offset => Sys2Proof.Machine.execLdrImm c m u rn rd offset s
  | .ldrReg c m u rn rd shiftImm shift rm => Sys2Proof.Machine.execLdrReg c m u rn rd shiftImm shift rm s
  | .strImm c m u rn rd offset => Sys2Proof.Machine.execStrImm c m u rn rd offset s
  | .strReg c m u rn rd shiftImm shift rm => Sys2Proof.Machine.execStrReg c m u rn rd shiftImm shift rm s
  | .mla c f rd rn rs rm => Sys2Proof.Machine.execMla c f rd rn rs rm s
  | .swp c rn rd rm => Sys2Proof.Machine.execSwp c rn rd rm s
  | .swpb c rn rd rm => Sys2Proof.Machine.execSwpb c rn rd rm s
  | .ldrshImm c m u rn rd offset => Sys2Proof.Machine.execLdrshImm c m u rn rd offset s
  | .ldrshReg c m u rn rd rm => Sys2Proof.Machine.execLdrshReg c m u rn rd rm s
  | .ldrdImm c m u rn rd offset => Sys2Proof.Machine.execLdrdImm c m u rn rd offset s
  | .ldrdReg c m u rn rd rm => Sys2Proof.Machine.execLdrdReg c m u rn rd rm s
  | .strdImm c m u rn rd offset => Sys2Proof.Machine.execStrdImm c m u rn rd offset s
  | .strdReg c m u rn rd rm => Sys2Proof.Machine.execStrdReg c m u rn rd rm s
  | .smla c rd rn rs y x rm => Sys2Proof.Machine.execSmla c rd rn rs y x rm s
  | .smlaw c rd rn rs y rm => Sys2Proof.Machine.execSmlaw c rd rn rs y rm s
  | .smulw c rd rs y rm => Sys2Proof.Machine.execSmulw c rd rs y rm s
  | .smlal c rdHi rdLo rs y x rm => Sys2Proof.Machine.execSmlal c rdHi rdLo rs y x rm s
  | .smul c rd rs y x rm => Sys2Proof.Machine.execSmul c rd rs y x rm s
  | .qadd c rn rd rm => Sys2Proof.Machine.execQadd c rn rd rm s
  | .qsub c rn rd rm => Sys2Proof.Machine.execQsub c rn rd rm s
  | .qdadd c rn rd rm => Sys2Proof.Machine.execQdadd c rn rd rm s
  | .qdsub c rn rd rm => Sys2Proof.Machine.execQdsub c rn rd rm s
  | .bx c rm => Sys2Proof.Machine.execBx c rm s
  | .blxReg c rm => Sys2Proof.Machine.execBlxReg c rm s
  | .clz c rd rm => Sys2Proof.Machine.execClz c rd rm s
  | .mrs c r rd => Sys2Proof.Machine.execMrs c r rd s
  | .msrReg c r mask rm => Sys2Proof.Machine.execMsrReg c r mask rm s
  | .msrImm c r mask rot imm => Sys2Proof.Machine.execMsrImm c r mask rot imm s
  | .movImm c f rd rot imm => Sys2Proof.Machine.execMovImm c f rd rot imm s
  | .movShiftImm c f rd shiftImm shift rm => Sys2Proof.Machine.execMovShiftImm c f rd shiftImm shift rm s
  | .movShiftReg c f rd rs shift rm => Sys2Proof.Machine.execMovShiftReg c f rd rs shift rm s
  | .addImm c f rn rd rot imm => Sys2Proof.Machine.execAddImm c f rn rd rot imm s
  | .addShiftImm c f rn rd shiftImm shift rm => Sys2Proof.Machine.execAddShiftImm c f rn rd shiftImm shift rm s
  | .addShiftReg c f rn rd rs shift rm => Sys2Proof.Machine.execAddShiftReg c f rn rd rs shift rm s
  | .subImm c f rn rd rot imm => Sys2Proof.Machine.execSubImm c f rn rd rot imm s
  | .subShiftImm c f rn rd shiftImm shift rm => Sys2Proof.Machine.execSubShiftImm c f rn rd shiftImm shift rm s
  | .subShiftReg c f rn rd rs shift rm => Sys2Proof.Machine.execSubShiftReg c f rn rd rs shift rm s
  | .orrImm c f rn rd rot imm => Sys2Proof.Machine.execOrrImm c f rn rd rot imm s
  | .orrShiftImm c f rn rd shiftImm shift rm => Sys2Proof.Machine.execOrrShiftImm c f rn rd shiftImm shift rm s
  | .orrShiftReg c f rn rd rs shift rm => Sys2Proof.Machine.execOrrShiftReg c f rn rd rs shift rm s

end Sys2Proof.Machine
end

