-- ==== Sys2Proof/Machine/Cycle.lean ====
section
/-!
DEFINITION. One step of the machine: what happens at an instruction boundary (landing CP15 writes, owed aborts,
interrupts), the fetch, the instruction, and the end of the step (rules R322, R323, R340 to R342, R352 to R358).
-/

namespace Sys2Proof.Machine

/-! ## Aborts owed (rules R58, R352 to R354) -/

/-- Whether an owed abort must be reported now: its three instructions have begun (rule R354). -/
def OwedAbort.overdue (o : OwedAbort) : Bool := o.deadline == some 0

/-- One further instruction begins (rule R354). -/
def OwedAbort.age (o : OwedAbort) : OwedAbort := { o with deadline := o.deadline.map (· - 1) }

/-- One further instruction begins: every owed abort is one nearer to its deadline (rule R354). -/
def State.ageOwed (s : State) : State := { s with owed := s.owed.map OwedAbort.age }

/-- The state with other aborts owed. -/
def State.setOwed (s : State) (l : List OwedAbort) : State := { s with owed := l }

/-- The first owed abort with a property, and the others. -/
def takeOwed (p : OwedAbort → Bool) (l : List OwedAbort) : Option (OwedAbort × List OwedAbort) :=
  match l.find? p with
  | none => none
  | some o => some (o, l.erase o)

/-- The owed abort reported at this boundary, and those that remain owed: one that is overdue, else, when the
environment says so, one of the highest priority (rules R347, R360). -/
def State.reported (s : State) : Option (OwedAbort × List OwedAbort) :=
  match takeOwed OwedAbort.overdue s.owed with
  | some r => some r
  | none =>
    if s.now.deliver then
      match takeOwed (fun o => o.cause == .external) s.owed with
      | some r => some r
      | none => takeOwed (fun _ => true) s.owed
    else none

/-! ## Exceptions at a boundary (rules R322, R323, R358) -/

/-- The exception taken before the next instruction, if any: an imprecise data abort, else FIQ, else IRQ. -/
def State.boundaryException (s : State) : Option State :=
  match s.reported with
  | some (o, rest) => some ((s.setOwed rest).takeImpreciseAbort o.cause)
  | none =>
    if s.now.fiq && !s.fiqDisabled then some s.takeFiq
    else if s.now.irq && !s.irqDisabled then some s.takeIrq
    else none

/-! ## Fetch (rules R73, R96, R116, R340 to R342) -/

/-- What a fetch answers: a word or a prefetch abort, with the state in which the instruction TLB may have been filled;
or a refusal. -/
inductive Fetched where
  | word (s : State) (w : Word)
  | abort (s : State) (status : BitVec 5)
  | refused (r : Refusal)
  deriving Repr

/-- `FS[10,3:0]` of a prefetch abort that a translation raises: the instruction MMU abort; an external abort on its
table walk has no code of its own (rules R96, R341, log 34). -/
def fetchFaultStatus (f : MmuFault) : BitVec 5 :=
  match f with
  | .walkFirst => if Config.fetchWalkAbortIsMmu then 0b10000 else 0b10110
  | .walkSecond _ => if Config.fetchWalkAbortIsMmu then 0b10000 else 0b10110
  | .translationSection => 0b10000
  | .translationPage _ => 0b10000
  | .domainSection _ => 0b10000
  | .domainPage _ => 0b10000
  | .permissionSection _ => 0b10000
  | .permissionPage _ => 0b10000

/-- The word a fetch reads: what memory holds, but for a word the program has stored to, which may be read as another
(rule R116, D15, log 25). -/
def State.fetchedWord (s : State) (b : BusAccess) : Word :=
  if s.stored.contains b.address.toNat then s.now.staleFetch.getD (b.word s.mem) else b.word s.mem

/-- The instruction fetch at the program counter: a word access, the same in both byte orders (rule R73). A walk that
ends without a fault has filled the instruction TLB even where the fetch itself then fails (rules R96, R127). -/
def State.fetch (s : State) : Fetched :=
  match translate .instruction false s.pc s with
  | .fault f => .abort s (fetchFaultStatus f)
  | .refused r => .refused r
  | .ok t pa a =>
    if s.now.fetchError then .abort t 0b10110
    else if s.now.fetchParity && s.instructionCacheOn && a.c then .abort t 0b11000
    else .word t (t.fetchedWord ⟨wordAlign pa, a.p⟩)

/-! ## The step -/

/-- The end of a step: one step more has been taken, and the environment's entry for it is used up (log 5). -/
def State.endStep (s : State) : State := { s with tick := s.tick + 1, env := s.env.tail }

/-- The end of an instruction: CPWAIT's guarantee, then the end of the step. -/
def retire (i : Instr) (s : State) (a : Answer) : Answer :=
  match a with
  | .next t =>
    match settle i s t with
    | none => .refused .lockResident
    | some u => .next u.endStep
  | .fault f => .fault f
  | .refused r => .refused r

/-- One instruction: fetch, decode, execute. -/
def runInstruction (s : State) : Answer :=
  match s.ageOwed.fetch with
  | .abort t status => .next (t.takePrefetchAbort status).endStep
  | .refused r => .refused r
  | .word t w =>
    match decodeWord w with
    | .error e => .refused (.undecodable e)
    | .ok i => retire i t (exec i t)

/-- One step: pending CP15 effects land, then one exception at the boundary or one instruction. -/
def cycle (s : State) : Answer :=
  if s.pastTop then .fault .runsPastTop
  else
    match landPending s.now.land s with
    | none => .refused .lockResident
    | some t =>
      if psrMode t.cpsr = none then .refused .unpredictableMode
      else
        match t.boundaryException with
        | some u => .next u.endStep
        | none => if t.thumb then .refused .thumbState else runInstruction t

/-! ## Placing an instruction -/

/-- The physical address the next fetch reads, as far as it translates. -/
def State.fetchAddress (s : State) : Word :=
  match translate .instruction false s.pc s with
  | .ok _ pa _ => pa
  | .fault _ => s.pc
  | .refused _ => s.pc

/-- The state with a word placed where the next step fetches, and nothing that could keep the step from running it:
no environment entry, no owed abort, ARM state (log 6). -/
def State.placeWord (s : State) (w : Word) : State :=
  { s with
    mem := Memory.writeWord s.mem s.fetchAddress.toNat w
    cpsr := s.cpsr &&& ~~~0x20#32
    env := []
    owed := []
    pastTop := false }

end Sys2Proof.Machine
end

