-- ==== Sys2Proof/Machine/Step.lean ====
section
/-!
DEFINITION. The step of the machine, and the placing of an instruction where it fetches. Both only call what
Machine/Cycle.lean defines.
-/

namespace Sys2Proof.Machine

/-- One step of the machine. -/
def step (s : State) : Host.Outcome State Fault Refusal := cycle s

/-- The state with an instruction's word stored where `step` fetches its next instruction, in little-endian lane order
(rules R72, R73); the bits above `nbits` are zero. -/
def State.withFetchWord (s : State) (nbits w : Nat) : State := s.placeWord (BitVec.ofNat 32 (w % 2 ^ nbits))

end Sys2Proof.Machine
end

