-- ==== Sys2Proof/Safety.lean ====
section
/-!
DEFINITION. What a safe run is, the invariants of the state that claims rest on, and the words claims are stated in:
what an instruction leaves alone, what taking an exception does, which instruction a step runs.
-/

/-! ## What an instruction may write -/

namespace Sys2Proof.Instr

/-- The instructions that store (rules R192, R281, R296, R297). -/
def storesToMemory : Instr → Bool
  | .strImm .. => true
  | .strReg .. => true
  | .swp .. => true
  | .swpb .. => true
  | .strdImm .. => true
  | .strdReg .. => true
  | .pldImm .. | .pldReg .. | .blxImm .. | .mia .. | .miaph .. | .miabb .. | .miabt .. | .miatb ..
  | .miatt .. | .mar .. | .mra .. | .mcrr .. | .mrrc .. | .mcr .. | .mrc .. | .b .. | .bl .. | .swi ..
  | .ldrImm .. | .ldrReg .. | .mla .. | .ldrshImm .. | .ldrshReg .. | .ldrdImm .. | .ldrdReg .. | .smla ..
  | .smlaw .. | .smulw .. | .smlal .. | .smul .. | .qadd .. | .qsub .. | .qdadd .. | .qdsub .. | .bx ..
  | .blxReg .. | .clz .. | .mrs .. | .msrReg .. | .msrImm .. | .movImm .. | .movShiftImm ..
  | .movShiftReg .. | .addImm .. | .addShiftImm .. | .addShiftReg .. | .subImm .. | .subShiftImm ..
  | .subShiftReg .. | .orrImm .. | .orrShiftImm .. | .orrShiftReg .. => false

/-- The instructions that write acc0 (rule R30). -/
def writesAccumulator : Instr → Bool
  | .mia .. => true
  | .miaph .. => true
  | .miabb .. => true
  | .miabt .. => true
  | .miatb .. => true
  | .miatt .. => true
  | .mar .. => true
  | .pldImm .. | .pldReg .. | .blxImm .. | .mra .. | .mcrr .. | .mrrc .. | .mcr .. | .mrc .. | .b ..
  | .bl .. | .swi .. | .ldrImm .. | .ldrReg .. | .strImm .. | .strReg .. | .mla .. | .swp .. | .swpb ..
  | .ldrshImm .. | .ldrshReg .. | .ldrdImm .. | .ldrdReg .. | .strdImm .. | .strdReg .. | .smla ..
  | .smlaw .. | .smulw .. | .smlal .. | .smul .. | .qadd .. | .qsub .. | .qdadd .. | .qdsub .. | .bx ..
  | .blxReg .. | .clz .. | .mrs .. | .msrReg .. | .msrImm .. | .movImm .. | .movShiftImm ..
  | .movShiftReg .. | .addImm .. | .addShiftImm .. | .addShiftReg .. | .subImm .. | .subShiftImm ..
  | .subShiftReg .. | .orrImm .. | .orrShiftImm .. | .orrShiftReg .. => false

/-- The accesses to coprocessor 0 (rules R40, R211, R231). -/
def accessesCoprocessor0 : Instr → Bool
  | .mia .. => true
  | .miaph .. => true
  | .miabb .. => true
  | .miabt .. => true
  | .miatb .. => true
  | .miatt .. => true
  | .mar .. => true
  | .mra .. => true
  | .pldImm .. | .pldReg .. | .blxImm .. | .mcrr .. | .mrrc .. | .mcr .. | .mrc .. | .b ..
  | .bl .. | .swi .. | .ldrImm .. | .ldrReg .. | .strImm .. | .strReg .. | .mla .. | .swp .. | .swpb ..
  | .ldrshImm .. | .ldrshReg .. | .ldrdImm .. | .ldrdReg .. | .strdImm .. | .strdReg .. | .smla ..
  | .smlaw .. | .smulw .. | .smlal .. | .smul .. | .qadd .. | .qsub .. | .qdadd .. | .qdsub .. | .bx ..
  | .blxReg .. | .clz .. | .mrs .. | .msrReg .. | .msrImm .. | .movImm .. | .movShiftImm ..
  | .movShiftReg .. | .addImm .. | .addShiftImm .. | .addShiftReg .. | .subImm .. | .subShiftImm ..
  | .subShiftReg .. | .orrImm .. | .orrShiftImm .. | .orrShiftReg .. => false

/-- The accesses to coprocessor 15 (rules R46, R240). -/
def accessesCoprocessor15 : Instr → Bool
  | .mcr .. => true
  | .mrc .. => true
  | .pldImm .. | .pldReg .. | .blxImm .. | .mia .. | .miaph .. | .miabb .. | .miabt .. | .miatb ..
  | .miatt .. | .mar .. | .mra .. | .mcrr .. | .mrrc .. | .b ..
  | .bl .. | .swi .. | .ldrImm .. | .ldrReg .. | .strImm .. | .strReg .. | .mla .. | .swp .. | .swpb ..
  | .ldrshImm .. | .ldrshReg .. | .ldrdImm .. | .ldrdReg .. | .strdImm .. | .strdReg .. | .smla ..
  | .smlaw .. | .smulw .. | .smlal .. | .smul .. | .qadd .. | .qsub .. | .qdadd .. | .qdsub .. | .bx ..
  | .blxReg .. | .clz .. | .mrs .. | .msrReg .. | .msrImm .. | .movImm .. | .movShiftImm ..
  | .movShiftReg .. | .addImm .. | .addShiftImm .. | .addShiftReg .. | .subImm .. | .subShiftImm ..
  | .subShiftReg .. | .orrImm .. | .orrShiftImm .. | .orrShiftReg .. => false

/-- The instructions that may write N, Z, C or V: S = 1, MSR to the CPSR, MRC to R15 (rule R27). -/
def writesConditionFlags : Instr → Bool
  | .mla _ f _ _ _ _ => f
  | .mrc _ _ rd _ _ => rd == Reg.pc
  | .msrReg _ r _ _ => !r
  | .msrImm _ r _ _ _ => !r
  | .movImm _ f _ _ _ => f
  | .movShiftImm _ f _ _ _ _ => f
  | .movShiftReg _ f _ _ _ _ => f
  | .addImm _ f _ _ _ _ => f
  | .addShiftImm _ f _ _ _ _ _ => f
  | .addShiftReg _ f _ _ _ _ _ => f
  | .subImm _ f _ _ _ _ => f
  | .subShiftImm _ f _ _ _ _ _ => f
  | .subShiftReg _ f _ _ _ _ _ => f
  | .orrImm _ f _ _ _ _ => f
  | .orrShiftImm _ f _ _ _ _ _ => f
  | .orrShiftReg _ f _ _ _ _ _ => f
  | .pldImm .. | .pldReg .. | .blxImm .. | .mia .. | .miaph .. | .miabb .. | .miabt .. | .miatb ..
  | .miatt .. | .mar .. | .mra .. | .mcrr .. | .mrrc .. | .mcr .. | .b .. | .bl .. | .swi .. | .ldrImm ..
  | .ldrReg .. | .strImm .. | .strReg .. | .swp .. | .swpb .. | .ldrshImm .. | .ldrshReg .. | .ldrdImm ..
  | .ldrdReg .. | .strdImm .. | .strdReg .. | .smla .. | .smlaw .. | .smulw .. | .smlal .. | .smul ..
  | .qadd .. | .qsub .. | .qdadd .. | .qdsub .. | .bx .. | .blxReg .. | .clz .. | .mrs .. => false

/-- The instructions that may clear Q: those that write the CPSR as a whole or its flags byte (rule R27). -/
def writesStatus : Instr → Bool
  | .msrReg _ r _ _ => !r
  | .msrImm _ r _ _ _ => !r
  | .movImm _ f rd _ _ => f && rd == Reg.pc
  | .movShiftImm _ f rd _ _ _ => f && rd == Reg.pc
  | .movShiftReg _ f rd _ _ _ => f && rd == Reg.pc
  | .addImm _ f _ rd _ _ => f && rd == Reg.pc
  | .addShiftImm _ f _ rd _ _ _ => f && rd == Reg.pc
  | .addShiftReg _ f _ rd _ _ _ => f && rd == Reg.pc
  | .subImm _ f _ rd _ _ => f && rd == Reg.pc
  | .subShiftImm _ f _ rd _ _ _ => f && rd == Reg.pc
  | .subShiftReg _ f _ rd _ _ _ => f && rd == Reg.pc
  | .orrImm _ f _ rd _ _ => f && rd == Reg.pc
  | .orrShiftImm _ f _ rd _ _ _ => f && rd == Reg.pc
  | .orrShiftReg _ f _ rd _ _ _ => f && rd == Reg.pc
  | .pldImm .. | .pldReg .. | .blxImm .. | .mia .. | .miaph .. | .miabb .. | .miabt .. | .miatb ..
  | .miatt .. | .mar .. | .mra .. | .mcrr .. | .mrrc .. | .mcr .. | .mrc .. | .b .. | .bl .. | .swi ..
  | .ldrImm .. | .ldrReg .. | .strImm .. | .strReg .. | .mla .. | .swp .. | .swpb .. | .ldrshImm ..
  | .ldrshReg .. | .ldrdImm .. | .ldrdReg .. | .strdImm .. | .strdReg .. | .smla .. | .smlaw .. | .smulw ..
  | .smlal .. | .smul .. | .qadd .. | .qsub .. | .qdadd .. | .qdsub .. | .bx .. | .blxReg .. | .clz ..
  | .mrs .. => false

end Sys2Proof.Instr

namespace Sys2Proof.Machine

/-- A run of `k` steps from a state ends in a next state: no fault, no refusal. -/
def State.SafeFor (s : State) (k : Nat) : Prop := ∃ t, Sys2Proof.core.run k s = .next t

/-- Memory is in its canonical form (log 3). -/
def State.MemoryCanonical (s : State) : Prop := Memory.wf s.mem = true

/-- The locked entries of a TLB are exactly those below its lock pointer, and the round-robin pointer is not below it
(rules R51, R127, R128). -/
def Tlb.Ordered (t : Tlb) : Prop :=
  (∀ i : Fin 32, t.entries[i].locked = decide (i < t.lockPtr)) ∧ t.lockPtr ≤ t.rrPtr

/-- Both TLBs are ordered. -/
def State.TlbsOrdered (s : State) : Prop := s.itlb.Ordered ∧ s.dtlb.Ordered

/-- The CPSR names one of the seven modes (rule R27). -/
def State.ModeLegal (s : State) : Prop := (psrMode s.cpsr).isSome = true

/-- The program counter is a multiple of 4 in ARM state and of 2 in Thumb state (rules R25, R300). -/
def State.PcAligned (s : State) : Prop :=
  s.pc.getLsbD 0 = false ∧ (s.thumb = false → s.pc.getLsbD 1 = false)

/-- A Control Register value reads as rule R32 says of its fixed bits, and is no illegal combination of rule R88. -/
def ControlLegal (v : Word) : Prop :=
  controlStored v = v ∧ (v.getLsbD 0 = false → v.getLsbD 2 = false)

/-- The Control Register is legal in program order, in effect, and in every write yet to land. -/
def State.ControlsLegal (s : State) : Prop :=
  ControlLegal s.cp15.control ∧ ControlLegal s.eff.control
    ∧ ∀ v, Cp15Effect.setControl v ∈ s.pending → ControlLegal v

/-- The registers in effect once one more effect has landed. -/
def Cp15Effect.registers (r : Cp15) : Cp15Effect → Cp15
  | .setControl v => { r with control := v }
  | .setAuxControl v => { r with auxControl := v }
  | .setTtb v => { r with ttb := v }
  | .setDacr v => { r with dacr := v }
  | .setPid v => { r with pid := v }
  | .setCpar v => { r with cpar := v }
  | .invalidateBoth => r
  | .invalidate _ => r
  | .invalidateEntry _ _ => r
  | .lock _ _ _ => r
  | .fill _ _ _ => r
  | .unlock _ => r

/-- Once every pending effect has landed, the registers in effect are those MRC reads (rules R256, R401). -/
def State.Cp15Agrees (s : State) : Prop := s.pending.foldl Cp15Effect.registers s.eff = s.cp15

/-! ## What an instruction leaves alone -/

/-- Every copy of a general register is as it was, but the current mode's copies of the named ones (rule R21). -/
def RegistersKeptBut (rs : List Reg) (s t : State) : Prop :=
  ∀ k : Fin 30, (∀ r ∈ rs, k ≠ bank s.mode r) → t.gpr[k] = s.gpr[k]

/-- Every byte of memory reads as it did. -/
def MemoryKept (s t : State) : Prop := ∀ a : Nat, Memory.read t.mem a = Memory.read s.mem a

/-- Every byte of memory reads as it did, but `n` bytes from an address on. -/
def MemoryKeptBut (first n : Nat) (s t : State) : Prop :=
  ∀ a : Nat, a < first ∨ first + n ≤ a → Memory.read t.mem a = Memory.read s.mem a

/-- The saved status registers, coprocessor 15, the instruction TLB, the environment and the step count are as they
were. -/
structure SystemKept (s t : State) : Prop where
  spsr : ∀ m : Mode, t.spsr m = s.spsr m
  cp15 : t.cp15 = s.cp15
  eff : t.eff = s.eff
  fsr : t.fsr = s.fsr
  far : t.far = s.far
  dcacheLock : t.dcacheLock = s.dcacheLock
  pending : t.pending = s.pending
  cpwait : t.cpwait = s.cpwait
  itlb : t.itlb = s.itlb
  env : t.env = s.env
  tick : t.tick = s.tick

/-- Memory, the marks of its accesses, the data TLB and the aborts owed are as they were. -/
structure DataKept (s t : State) : Prop where
  memory : MemoryKept s t
  dtlb : t.dtlb = s.dtlb
  owed : t.owed = s.owed
  stored : t.stored = s.stored
  dirty : t.dirty = s.dirty
  subWord : t.subWord = s.subWord

/-- The program counter moves to the next instruction (rule R25). -/
structure Advanced (s t : State) : Prop where
  pc : t.pc = s.pc + 4
  pastTop : t.pastTop = decide (4294967292 ≤ s.pc.toNat)

/-- Control goes to an address. -/
structure Transferred (target : Word) (s t : State) : Prop where
  pc : t.pc = target
  pastTop : t.pastTop = false

/-- Nothing but the named registers, the accumulator, the status register and the program counter may differ. -/
structure AccumulatorFrame (rs : List Reg) (s t : State) : Prop where
  registers : RegistersKeptBut rs s t
  system : SystemKept s t
  data : DataKept s t

/-- Nothing but the named registers, the status register and the program counter may differ. -/
structure RegisterFrame (rs : List Reg) (s t : State) : Prop extends AccumulatorFrame rs s t where
  acc0 : t.acc0 = s.acc0

/-- Nothing but the named registers, the status register, the program counter, the bytes of memory named (`n` from
`first` on) with the marks of memory's accesses, the aborts owed may differ, and the data TLB, which is the one of
`u`. -/
structure OwingFrame (rs : List Reg) (first n : Nat) (u s t : State) : Prop where
  registers : RegistersKeptBut rs s t
  acc0 : t.acc0 = s.acc0
  system : SystemKept s t
  dtlb : t.dtlb = u.dtlb
  memory : MemoryKeptBut first n s t

/-- The same, and no abort has come to be owed. -/
structure AccessFrame (rs : List Reg) (first n : Nat) (u s t : State) : Prop extends OwingFrame rs first n u s t where
  owed : t.owed = s.owed

/-- The CPSR is as it was below a bit position. -/
def CpsrKeptBelow (n : Nat) (s t : State) : Prop := ∀ k, k < n → t.cpsr.getLsbD k = s.cpsr.getLsbD k

/-! ## The shifts of a shifter operand, bit by bit (rule R148) -/

/-- Bit `i` of a word shifted by an amount. -/
def shiftBit (sh : Shift) (w : Word) (n i : Nat) : Bool :=
  match sh with
  | .lsl => decide (n ≤ i) && w.getLsbD (i - n)
  | .lsr => w.getLsbD (i + n)
  | .asr => if i + n < 32 then w.getLsbD (i + n) else w.getLsbD 31
  | .ror => w.getLsbD ((i + n) % 32)

/-- The carry of a word shifted by an amount: the last bit shifted out, or the carry that came in. -/
def shiftCarry (sh : Shift) (w : Word) (n : Nat) (carryIn : Bool) : Bool :=
  if n = 0 then carryIn
  else
    match sh with
    | .lsl => decide (n ≤ 32) && w.getLsbD (32 - n)
    | .lsr => w.getLsbD (n - 1)
    | .asr => if n < 32 then w.getLsbD (n - 1) else w.getLsbD 31
    | .ror => w.getLsbD ((n - 1) % 32)

/-! ## Taking an exception (rules R330, R331, R334) -/

/-- A state is left by taking an exception with a return value: what is saved, what the status becomes, where the
program counter goes, and that the rest is as it was; the FSR and the FAR are not spoken of. -/
structure Entered (k : Exception) (link : Word) (s t : State) : Prop where
  link : t.gpr[bank k.mode Reg.lr] = link
  registers : ∀ j : Fin 30, j ≠ bank k.mode Reg.lr → t.gpr[j] = s.gpr[j]
  saved : t.spsr k.mode = some s.cpsr
  otherSaved : ∀ m : Mode, m ≠ k.mode → t.spsr m = s.spsr m
  mode : t.mode = k.mode
  arm : t.thumb = false
  irqDisabled : t.irqDisabled = true
  fiqDisabled : t.fiqDisabled = (decide (k = .fiq) || s.fiqDisabled)
  status : ∀ j, 8 ≤ j → j < 32 → t.cpsr.getLsbD j = s.cpsr.getLsbD j
  pc : t.pc = s.vectorBase + k.offset
  pastTop : t.pastTop = false
  acc0 : t.acc0 = s.acc0
  cp15 : t.cp15 = s.cp15
  eff : t.eff = s.eff
  dcacheLock : t.dcacheLock = s.dcacheLock
  pending : t.pending = s.pending
  cpwait : t.cpwait = .idle
  itlb : t.itlb = s.itlb
  data : DataKept s t
  env : t.env = s.env
  tick : t.tick = s.tick

/-- The FSR and the FAR are as they were. -/
def FaultRegistersKept (s t : State) : Prop := t.fsr = s.fsr ∧ t.far = s.far

/-- A precise data abort of the executing instruction has been taken, with the address it reports: the exception with
`R14_abt = A + 8`, the status and a valid domain in the FSR, the address in the FAR (rules R344, R345, R348). -/
structure DataAborted (status : BitVec 5) (domain : Option (BitVec 4)) (va : Word) (s t : State) : Prop where
  entered : Entered .dataAbort (s.pc + 8) s t
  status : fsrStatus t.fsr = status
  domain : ∀ d, domain = some d → fsrDomain t.fsr = d
  far : t.far = va

/-! ## Translation -/

/-- What a descriptor's entry gives: it translates the addresses of the region of `n` bytes that an address lies in, and
no others, each to the address as far into the region that the descriptor names, with an access permission for each,
and with a size, a domain and attributes (rules R90 to R95). -/
structure MapsRegion (e : TlbEntry) (mva : Word) (size : PageSize) (n : Nat) (descriptor : Word) (ap : Word → BitVec 2)
    (domain : BitVec 4) (attributes : Attributes) : Prop where
  size : e.size = size
  hits : ∀ m : Word, e.hits m = true ↔ m.toNat / n = mva.toNat / n
  physical : ∀ m : Word, (e.physical m).toNat = descriptor.toNat / n * n + m.toNat % n
  ap : ∀ m : Word, e.ap m = ap m
  domain : e.domain = domain
  attributes : e.attributes = attributes

/-! ## Data accesses -/

/-- What an instruction asks of data memory. -/
structure DataAccess where
  /-- The registers it loads; the program counter among them is a transfer of control. -/
  loads : List Reg
  write : Bool
  /-- No width for a byte access, which has no alignment (rule R76). -/
  width : Option Width
  address : Word
  /-- The base register and the value written back to it, where the form writes back. -/
  base : Option (Reg × Word)
  deriving DecidableEq, Repr

/-- The access of a load or store with an addressing mode. -/
def indexedAccess (loads : List Reg) (write : Bool) (w : Width) (rn : Reg) (a : Address) : DataAccess :=
  ⟨loads, write, some w, a.address, a.writeback.map fun v => (rn, v)⟩

/-- How many bytes it stores. -/
def DataAccess.storedBytes (d : DataAccess) : Nat :=
  if d.write then (match d.width with | none => 1 | some w => w.bytes) else 0

/-- Where it stores them, from the physical address: a byte in its lane (rule R72). -/
def DataAccess.storedAt (d : DataAccess) (s : State) (pa : Word) : Nat :=
  if d.width = none then s.byteLane pa else pa.toNat

/-- The registers it writes: those it loads, but for R15, and its base where the form writes it back. -/
def DataAccess.writes (d : DataAccess) : List Reg :=
  d.loads.filter (· ≠ Reg.pc) ++ (d.base.map Prod.fst).toList

/-- The data access of a load, store or swap in a state (rules R191, R192, R280, R281, R287, R296, R297). -/
def dataAccessOf (s : State) : Instr → Option DataAccess
  | .ldrImm _ m u rn rd off => some (indexedAccess [rd] false .word rn (immediateAddress s m u rn off))
  | .ldrReg _ m u rn rd n sh rm => some (indexedAccess [rd] false .word rn (scaledAddress s m u rn n sh rm))
  | .strImm _ m u rn _ off => some (indexedAccess [] true .word rn (immediateAddress s m u rn off))
  | .strReg _ m u rn _ n sh rm => some (indexedAccess [] true .word rn (scaledAddress s m u rn n sh rm))
  | .swp _ rn rd _ => some ⟨[rd], true, some .word, s.reg rn, none⟩
  | .swpb _ rn rd _ => some ⟨[rd], true, none, s.reg rn, none⟩
  | .ldrshImm _ m u rn rd off => some (indexedAccess [rd] false .half rn (immediateAddress s m u rn off))
  | .ldrshReg _ m u rn rd rm => some (indexedAccess [rd] false .half rn (registerAddress s m u rn rm))
  | .ldrdImm _ m u rn rd off => some (indexedAccess [rd, rd + 1] false .double rn (immediateAddress s m u rn off))
  | .ldrdReg _ m u rn rd rm => some (indexedAccess [rd, rd + 1] false .double rn (registerAddress s m u rn rm))
  | .strdImm _ m u rn _ off => some (indexedAccess [] true .double rn (immediateAddress s m u rn off))
  | .strdReg _ m u rn _ rm => some (indexedAccess [] true .double rn (registerAddress s m u rn rm))
  | .pldImm .. | .pldReg .. | .blxImm .. | .mia .. | .miaph .. | .miabb .. | .miabt .. | .miatb .. | .miatt ..
  | .mar .. | .mra .. | .mcrr .. | .mrrc .. | .mcr .. | .mrc .. | .b .. | .bl .. | .swi .. | .mla .. | .smla ..
  | .smlaw .. | .smulw .. | .smlal .. | .smul .. | .qadd .. | .qsub .. | .qdadd .. | .qdsub .. | .bx .. | .blxReg ..
  | .clz .. | .mrs .. | .msrReg .. | .msrImm .. | .movImm .. | .movShiftImm .. | .movShiftReg .. | .addImm ..
  | .addShiftImm .. | .addShiftReg .. | .subImm .. | .subShiftImm .. | .subShiftReg .. | .orrImm ..
  | .orrShiftImm .. | .orrShiftReg .. => none

/-- The environment reports no error on the data access of this step (decision D23). -/
def State.NoDataError (s : State) : Prop := s.now.dataError = false ∧ s.now.dataParity = false

/-- The base register after an access that completes: written back where the form asks for it (rule R149). -/
def BaseAfter (rn : Reg) (a : Address) (t : State) : Prop :=
  ∀ v, a.writeback = some v → t.reg rn = v

/-- The registers an access writes: those it loads, and its base where the form writes it back. -/
def writtenWith (rn : Reg) (a : Address) (rds : List Reg) : List Reg :=
  if a.writeback = none then rds else rn :: rds

/-- What an MCR leaves alone, whatever it writes: every register, the status registers, the accumulator, the registers
in effect, both TLBs, memory. -/
structure ControlFrame (s t : State) : Prop where
  gpr : t.gpr = s.gpr
  cpsr : t.cpsr = s.cpsr
  spsr : ∀ m : Mode, t.spsr m = s.spsr m
  acc0 : t.acc0 = s.acc0
  eff : t.eff = s.eff
  cpwait : t.cpwait = s.cpwait
  itlb : t.itlb = s.itlb
  data : DataKept s t
  env : t.env = s.env
  tick : t.tick = s.tick

/-! ## What a step runs -/

/-- A word that an instruction fetch from a physical address may read, a word access: what memory holds there, or for a
word the program has stored to the one the environment chooses, if it chooses one (rules R73, R116; log 25). -/
structure FetchReads (s : State) (pa w : Word) : Prop where
  unstored : pa.toNat / 4 * 4 ∉ s.stored → w = Memory.readWord s.mem (pa.toNat / 4 * 4)
  fresh : s.now.staleFetch = none → w = Memory.readWord s.mem (pa.toNat / 4 * 4)
  stale : ∀ x, pa.toNat / 4 * 4 ∈ s.stored → s.now.staleFetch = some x → w = x

/-- The next step from a state reaches an instruction, in a state: what may land has landed, no exception is taken at
the boundary, the word fetched at the program counter decodes to it (rules R25, R96, R256, R358). -/
def Runs (s : State) (i : Instr) (u : State) : Prop :=
  s.pastTop = false ∧ ∃ t, landPending s.now.land s = some t ∧ psrMode t.cpsr ≠ none ∧ t.boundaryException = none
    ∧ t.thumb = false ∧ ∃ w, t.ageOwed.fetch = .word u w ∧ decodeWord w = .ok i

end Sys2Proof.Machine
end

