-- ==== Sys2Proof/Certificates/Slice0/Obligations.lean ====
section
/-!
DEFINITION. The statements about the model, for the provers. A statement that rests on a choice of the model names its
log entry. -/

open Sys2Proof Sys2Proof.Machine

/-! ## Encoding -/

/-- Words the spec writes out (rules R195, R220, R233, R234, R248, R255, R270 to R273, R280, R298) decode to the
instructions they stand for. -/
def Obligations.DecodesSpecWords : Prop :=
  decodeTableWord 32 0xE3A09000 = some (.movImm .al false 9 0 0)
  ∧ decodeTableWord 32 0xE1B00001 = some (.movShiftImm .al true 0 0 .lsl 1)
  ∧ decodeTableWord 32 0xE0899003 = some (.addShiftImm .al false 9 9 0 .lsl 3)
  ∧ decodeTableWord 32 0xE3800001 = some (.orrImm .al false 0 0 0 1)
  ∧ decodeTableWord 32 0xE24FF004 = some (.subImm .al false 15 15 0 4)
  ∧ decodeTableWord 32 0xE5901004 = some (.ldrImm .al .offset true 0 1 4)
  ∧ decodeTableWord 32 0x1AFFFFF9 = some (.b .ne 0xFFFFF9)
  ∧ decodeTableWord 32 0xF5D1F000 = some (.pldImm true 1 0)
  ∧ decodeTableWord 32 0xEE120F10 = some (.mrc .al 2 0 0 0)
  ∧ decodeTableWord 32 0xEE081F36 = some (.mcr .al 8 1 1 6)
  ∧ decodeTableWord 32 0xEC410000 = some (.mar .al 1 0)
  ∧ decodeTableWord 32 0xEC510000 = some (.mra .al 1 0)
  ∧ decodeTableWord 32 0xEE2D3012 = some (.miabt .al 3 2)

/-- Decoding the word of an instruction gives the instruction back, for every operand an encoding admits; and a word
that decodes is the word of the instruction it decodes to, which an encoding admits: no two words decode to one
instruction. -/
def Obligations.DecodeAndEncodeAgree : Prop :=
  (∀ i : Instr, i.encodable = true → decodeWord (encode i) = .ok i)
  ∧ (∀ (w : Word) (i : Instr), decodeWord w = .ok i → encode i = w ∧ i.encodable = true)

/-! ## The step -/

/-- A step runs the instruction decoded at the program counter. Around its execution a step settles CPWAIT's stage,
counts itself and uses up its entry of the environment. The word decoded is the one that memory holds at the physical
address of the program counter, translated once what lands has landed; for a word that the program has stored to it may
be another, which the environment chooses (rules R25, R73, R96, R116; log 25). The state the instruction runs in is
the state before the step, but for what has landed, the age of the aborts owed, and the instruction TLB, which the
fetch may have filled. A fetch that translates and suffers no error reads such a word. -/
def Obligations.StepRunsDecoded : Prop :=
  (∀ (s u : State) (i : Instr), Runs s i u →
    (∀ f, exec i u = .fault f → step s = .fault f)
    ∧ (∀ r, exec i u = .refused r → step s = .refused r)
    ∧ (∀ t, exec i u = .next t → ¬ (i = cpwaitSub ∧ u.cpwait = .afterMov) →
        step s = .next { t with cpwait := cpwaitStage i u, tick := t.tick + 1, env := t.env.tail })
    ∧ (∀ t v, exec i u = .next t → i = cpwaitSub → u.cpwait = .afterMov →
        landPending t.pending.length { t with cpwait := .idle } = some v →
        step s = .next { v with tick := v.tick + 1, env := v.env.tail })
    ∧ (∀ t, exec i u = .next t → i = cpwaitSub → u.cpwait = .afterMov →
        landPending t.pending.length { t with cpwait := .idle } = none → step s = .refused .lockResident))
  ∧ (∀ (s u : State) (i : Instr), Runs s i u →
    ∃ (t : State) (pa : Word) (a : Attributes) (w : Word), landPending s.now.land s = some t
      ∧ translate .instruction false s.pc t.ageOwed = .ok u pa a ∧ FetchReads s pa w ∧ decodeWord w = .ok i
      ∧ u.eff = t.eff ∧ u.dtlb = t.dtlb
      ∧ u = { s with eff := u.eff, pending := s.pending.drop s.now.land, itlb := u.itlb, dtlb := u.dtlb,
                     owed := s.owed.map OwedAbort.age })
  ∧ ∀ (s t : State) (pa : Word) (a : Attributes), translate .instruction false s.pc s = .ok t pa a →
    s.now.fetchError = false → s.now.fetchParity = false ∨ s.instructionCacheOn = false ∨ a.c = false →
    ∃ w, s.fetch = .word t w ∧ FetchReads s pa w

/-- Steps that stop by name: a word that no row of the opcode table matches, never an exception (rules R157, R310,
decision D2); execution past the top of the address space (decision D7); Thumb state (decision D3). -/
def Obligations.StepsWithoutMeaning : Prop :=
  (∀ (s t u : State) (w : Word) (e : DecodeError), s.pastTop = false → landPending s.now.land s = some t →
    psrMode t.cpsr ≠ none → t.boundaryException = none → t.thumb = false → t.ageOwed.fetch = .word u w →
    decodeWord w = .error e → step s = .refused (.undecodable e))
  ∧ ((∀ s : State, s.pastTop = true → step s = .fault .runsPastTop)
  ∧ ∀ s t : State, s.pastTop = false → landPending s.now.land s = some t → psrMode t.cpsr ≠ none →
    t.boundaryException = none → t.thumb = true → step s = .refused .thumbState)

/-! ## Reset and the invariants -/

/-- After reset the lock pointer of each TLB is 0 and its round-robin pointer 31 (rules R51, R52, R392), and the state
meets the invariants. -/
def Obligations.ResetState : Prop :=
  (State.reset.itlb.lockPtr = 0 ∧ State.reset.itlb.rrPtr = 31
  ∧ State.reset.dtlb.lockPtr = 0 ∧ State.reset.dtlb.rrPtr = 31)
  ∧ (State.reset.MemoryCanonical ∧ State.reset.TlbsOrdered ∧ State.reset.ControlsLegal ∧ State.reset.Cp15Agrees
  ∧ State.reset.ModeLegal ∧ State.reset.PcAligned)

/-- Every step keeps memory in its canonical form (log 3). -/
def Obligations.StepKeepsMemoryCanonical : Prop :=
  ∀ s t : State, step s = .next t → s.MemoryCanonical → t.MemoryCanonical

/-- Every step keeps the locked entries of each TLB exactly those below its lock pointer, and the round-robin pointer
at or above it (rules R51, R127, R128). -/
def Obligations.StepKeepsTlbsOrdered : Prop :=
  ∀ s t : State, step s = .next t → s.TlbsOrdered → t.TlbsOrdered

/-- No step brings the Control Register to the illegal combination of the MMU off and the data cache on, nor changes
its fixed bits (rules R32, R88); and every step keeps this: once all that is pending has landed, the CP15 registers in
effect are those MRC reads (rules R114, R256, R401). -/
def Obligations.StepKeepsControl : Prop :=
  (∀ s t : State, step s = .next t → s.ControlsLegal → t.ControlsLegal)
  ∧ (∀ s t : State, step s = .next t → s.Cp15Agrees → t.Cp15Agrees)

/-- Every step keeps the mode number one of the seven (rule R27), and the program counter aligned (rules R25, R300). -/
def Obligations.StepKeepsModeAndPc : Prop :=
  (∀ s t : State, step s = .next t → s.ModeLegal → t.ModeLegal)
  ∧ (∀ s t : State, step s = .next t → s.PcAligned → t.PcAligned)

/-! ## Conditions and register fields -/

/-- Rule R28: the sixteen codes, when each condition passes, and that an instruction whose condition fails writes
nothing, raises nothing and only advances the program counter. -/
def Obligations.ConditionCodesGovernExecution : Prop :=
  (Cond.ofBits 0b0000 = some .eq ∧ Cond.ofBits 0b0001 = some .ne ∧ Cond.ofBits 0b0010 = some .cs
    ∧ Cond.ofBits 0b0011 = some .cc ∧ Cond.ofBits 0b0100 = some .mi ∧ Cond.ofBits 0b0101 = some .pl
    ∧ Cond.ofBits 0b0110 = some .vs ∧ Cond.ofBits 0b0111 = some .vc ∧ Cond.ofBits 0b1000 = some .hi
    ∧ Cond.ofBits 0b1001 = some .ls ∧ Cond.ofBits 0b1010 = some .ge ∧ Cond.ofBits 0b1011 = some .lt
    ∧ Cond.ofBits 0b1100 = some .gt ∧ Cond.ofBits 0b1101 = some .le ∧ Cond.ofBits 0b1110 = some .al
    ∧ Cond.ofBits 0b1111 = none)
  ∧ (∀ s : State, (conditionPassed .eq s = true ↔ s.z = true) ∧ (conditionPassed .ne s = true ↔ s.z = false)
    ∧ (conditionPassed .cs s = true ↔ s.c = true) ∧ (conditionPassed .cc s = true ↔ s.c = false)
    ∧ (conditionPassed .mi s = true ↔ s.n = true) ∧ (conditionPassed .pl s = true ↔ s.n = false)
    ∧ (conditionPassed .vs s = true ↔ s.v = true) ∧ (conditionPassed .vc s = true ↔ s.v = false)
    ∧ (conditionPassed .hi s = true ↔ s.c = true ∧ s.z = false)
    ∧ (conditionPassed .ls s = true ↔ s.c = false ∨ s.z = true)
    ∧ (conditionPassed .ge s = true ↔ s.n = s.v) ∧ (conditionPassed .lt s = true ↔ s.n ≠ s.v)
    ∧ (conditionPassed .gt s = true ↔ s.z = false ∧ s.n = s.v)
    ∧ (conditionPassed .le s = true ↔ s.z = true ∨ s.n ≠ s.v) ∧ conditionPassed .al s = true)
  ∧ ∀ (i : Instr) (c : Cond) (s : State), i.condition = some c → conditionPassed c s = false →
    exec i s = .next { s with pc := s.pc + 4, pastTop := decide (4294967292 ≤ s.pc.toNat) }

/-- An instruction whose register fields the spec calls UNPREDICTABLE has no meaning, in every mode, once its condition
passes and it is not turned away before: an access to coprocessor 0 while that is inaccessible, an access to coprocessor
15 in User mode (logs 30 and 31). -/
def Obligations.UnpredictableRegistersRefused : Prop :=
  ∀ (i : Instr) (s : State), i.predictable = false → (∀ c, i.condition = some c → conditionPassed c s = true) →
    (i.accessesCoprocessor0 = true → s.eff.cpar.getLsbD 0 = true) →
    (i.accessesCoprocessor15 = true → s.privileged = true) → exec i s = .refused .unpredictableRegisters

/-! ## Coprocessor 0 -/

/-- MIA and MIAPH (rules R215, R217): their encodings, and the exact signed product, or the two products of like
halves, whose ranges the rules give, added to the accumulator modulo 2^40; no flag, no register, no memory; R15 in a
field is UNPREDICTABLE. -/
def Obligations.MiaAndMiaphAccumulateProducts : Prop :=
  ((∀ c rs rm, decodeWord (c.toBits ++ 0xE20#12 ++ rs ++ 0x01#8 ++ rm) = .ok (.mia c rs rm))
  ∧ (∀ v w : Word, -4611686016279904256 ≤ v.toInt * w.toInt ∧ v.toInt * w.toInt ≤ 4611686018427387904)
  ∧ (∀ rs rm, encode (.mia .al rs rm) = 0xEE200010#32 ||| rs.setWidth 32 <<< 12 ||| rm.setWidth 32)
  ∧ (∀ c rs rm s, conditionPassed c s = true → s.eff.cpar.getLsbD 0 = true → rs = Reg.pc ∨ rm = Reg.pc →
      exec (.mia c rs rm) s = .refused .unpredictableRegisters)
  ∧ ∀ c rs rm s, conditionPassed c s = true → s.eff.cpar.getLsbD 0 = true → rs ≠ Reg.pc → rm ≠ Reg.pc →
    ∃ t, exec (.mia c rs rm) s = .next t
      ∧ (t.acc0.toNat : Int) = ((s.reg rm).toInt * (s.reg rs).toInt + s.acc0.toNat) % 1099511627776
      ∧ t.cpsr = s.cpsr ∧ Advanced s t ∧ AccumulatorFrame [] s t)
  ∧ ((∀ c rs rm, decodeWord (c.toBits ++ 0xE28#12 ++ rs ++ 0x01#8 ++ rm) = .ok (.miaph c rs rm))
  ∧ (∀ x y v w, -1073709056 ≤ halfProduct x v y w ∧ halfProduct x v y w ≤ 1073741824)
  ∧ (∀ rs rm, encode (.miaph .al rs rm) = 0xEE280010#32 ||| rs.setWidth 32 <<< 12 ||| rm.setWidth 32)
  ∧ (∀ c rs rm s, conditionPassed c s = true → s.eff.cpar.getLsbD 0 = true → rs = Reg.pc ∨ rm = Reg.pc →
      exec (.miaph c rs rm) s = .refused .unpredictableRegisters)
  ∧ ∀ c rs rm s, conditionPassed c s = true → s.eff.cpar.getLsbD 0 = true → rs ≠ Reg.pc → rm ≠ Reg.pc →
    ∃ t, exec (.miaph c rs rm) s = .next t
      ∧ (t.acc0.toNat : Int) =
        (((s.reg rm).extractLsb' 16 16).toInt * ((s.reg rs).extractLsb' 16 16).toInt
          + ((s.reg rm).extractLsb' 0 16).toInt * ((s.reg rs).extractLsb' 0 16).toInt + s.acc0.toNat) % 1099511627776
      ∧ t.cpsr = s.cpsr ∧ Advanced s t ∧ AccumulatorFrame [] s t)

/-- MIABB, MIABT, MIATB, MIATT (rules R219 to R222): their encodings, and the exact product of the two halves they
name added to the accumulator. -/
def Obligations.MiaHalvesAccumulateProduct : Prop :=
  (∀ c rs rm, decodeWord (c.toBits ++ 0xE2C#12 ++ rs ++ 0x01#8 ++ rm) = .ok (.miabb c rs rm)
    ∧ decodeWord (c.toBits ++ 0xE2D#12 ++ rs ++ 0x01#8 ++ rm) = .ok (.miabt c rs rm)
    ∧ decodeWord (c.toBits ++ 0xE2E#12 ++ rs ++ 0x01#8 ++ rm) = .ok (.miatb c rs rm)
    ∧ decodeWord (c.toBits ++ 0xE2F#12 ++ rs ++ 0x01#8 ++ rm) = .ok (.miatt c rs rm))
  ∧ (∀ rs rm, encode (.miabb .al rs rm) = 0xEE2C0010#32 ||| rs.setWidth 32 <<< 12 ||| rm.setWidth 32
    ∧ encode (.miabt .al rs rm) = 0xEE2D0010#32 ||| rs.setWidth 32 <<< 12 ||| rm.setWidth 32
    ∧ encode (.miatb .al rs rm) = 0xEE2E0010#32 ||| rs.setWidth 32 <<< 12 ||| rm.setWidth 32
    ∧ encode (.miatt .al rs rm) = 0xEE2F0010#32 ||| rs.setWidth 32 <<< 12 ||| rm.setWidth 32)
  ∧ ∀ (i : Instr) (c : Cond) (rs rm : Reg) (lowM lowS : Nat) (s : State),
    ((i = .miabb c rs rm ∧ lowM = 0 ∧ lowS = 0) ∨ (i = .miabt c rs rm ∧ lowM = 0 ∧ lowS = 16)
      ∨ (i = .miatb c rs rm ∧ lowM = 16 ∧ lowS = 0) ∨ (i = .miatt c rs rm ∧ lowM = 16 ∧ lowS = 16)) →
    conditionPassed c s = true → s.eff.cpar.getLsbD 0 = true → rs ≠ Reg.pc → rm ≠ Reg.pc →
    ∃ t, exec i s = .next t
      ∧ (t.acc0.toNat : Int) =
        (((s.reg rm).extractLsb' lowM 16).toInt * ((s.reg rs).extractLsb' lowS 16).toInt + s.acc0.toNat)
          % 1099511627776
      ∧ t.cpsr = s.cpsr ∧ Advanced s t ∧ AccumulatorFrame [] s t

/-- MAR and MRA (rules R233, R234): their encodings, what they write, and nothing else. -/
def Obligations.MarAndMraMoveAccumulator : Prop :=
  ((∀ c hi lo, decodeWord (c.toBits ++ 0xC4#8 ++ hi ++ lo ++ 0x000#12) = .ok (.mar c hi lo))
  ∧ (∀ hi lo, encode (.mar .al hi lo) = 0xEC400000#32 ||| hi.setWidth 32 <<< 16 ||| lo.setWidth 32 <<< 12)
  ∧ ∀ c hi lo s, conditionPassed c s = true → s.eff.cpar.getLsbD 0 = true → hi ≠ Reg.pc → lo ≠ Reg.pc → hi ≠ lo →
    ∃ t, exec (.mar c hi lo) s = .next t
      ∧ t.acc0.toNat = (s.reg hi).toNat % 256 * 4294967296 + (s.reg lo).toNat
      ∧ t.cpsr = s.cpsr ∧ Advanced s t ∧ AccumulatorFrame [] s t)
  ∧ ((∀ c hi lo, decodeWord (c.toBits ++ 0xC5#8 ++ hi ++ lo ++ 0x000#12) = .ok (.mra c hi lo))
  ∧ (∀ hi lo, encode (.mra .al hi lo) = 0xEC500000#32 ||| hi.setWidth 32 <<< 16 ||| lo.setWidth 32 <<< 12)
  ∧ ∀ c hi lo s, conditionPassed c s = true → s.eff.cpar.getLsbD 0 = true → hi ≠ Reg.pc → lo ≠ Reg.pc → hi ≠ lo →
    ∃ t, exec (.mra c hi lo) s = .next t
      ∧ (t.reg lo).toNat = s.acc0.toNat % 4294967296
      ∧ (t.reg hi).toInt = s.acc0.toInt / 4294967296
      ∧ t.cpsr = s.cpsr ∧ Advanced s t ∧ RegisterFrame [hi, lo] s t)

/-- Rule R235: MRA and then MAR with the same registers restores the accumulator; MAR and then MRA returns RdLo, and
RdHi as the sign extension of its bits 7:0. -/
def Obligations.AccumulatorRoundTrips : Prop :=
  ∀ (hi lo : Reg) (s t u : State), hi ≠ Reg.pc → lo ≠ Reg.pc → hi ≠ lo → s.eff.cpar.getLsbD 0 = true →
    (exec (.mra .al hi lo) s = .next t → exec (.mar .al hi lo) t = .next u → u.acc0 = s.acc0)
    ∧ (exec (.mar .al hi lo) s = .next t → exec (.mra .al hi lo) t = .next u →
        u.reg lo = s.reg lo ∧ (u.reg hi).toInt = ((s.reg hi).extractLsb' 0 8).toInt)

/-- While bit 0 of the Coprocessor Access Register is clear, any access to coprocessor 0 takes the Undefined
Instruction exception, in every mode, and changes nothing else (rules R40, R211, R231, R356). -/
def Obligations.AccumulatorGateTraps : Prop :=
  ∀ (i : Instr) (c : Cond) (a b : Reg) (s : State),
    i ∈ [Instr.mia c a b, .miaph c a b, .miabb c a b, .miabt c a b, .miatb c a b, .miatt c a b, .mar c a b,
      .mra c a b] →
    conditionPassed c s = true → s.eff.cpar.getLsbD 0 = false →
    ∃ t, exec i s = .next t ∧ Entered .undefined (s.pc + 4) s t ∧ FaultRegistersKept s t

/-! ## Data processing -/

/-- The shifter operand in its three forms, bit by bit, with its carry (rule R148). -/
def Obligations.ShifterOperandBitByBit : Prop :=
  (∀ (rot : BitVec 4) (imm : BitVec 8) (c : Bool),
    (∀ i, i < 32 → (immediateOperand rot imm c).value.getLsbD i =
      (imm.setWidth 32).getLsbD ((i + 2 * rot.toNat) % 32))
    ∧ (immediateOperand rot imm c).carry = if rot = 0 then c else (immediateOperand rot imm c).value.getLsbD 31)
  ∧ (∀ (sh : Shift) (w rs : Word) (c : Bool),
    (∀ i, i < 32 → (shiftByRegister sh w rs c).value.getLsbD i = shiftBit sh w (rs.toNat % 256) i)
    ∧ (shiftByRegister sh w rs c).carry = shiftCarry sh w (rs.toNat % 256) c)
  ∧ (∀ (sh : Shift) (w : Word) (n : BitVec 5) (c : Bool), (n ≠ 0 ∨ sh = .lsl) →
    (∀ i, i < 32 → (shiftByImmediate sh w n c).value.getLsbD i = shiftBit sh w n.toNat i)
    ∧ (shiftByImmediate sh w n c).carry = shiftCarry sh w n.toNat c)
  ∧ (∀ (sh : Shift) (w : Word) (c : Bool), (sh = .lsr ∨ sh = .asr) →
    (∀ i, i < 32 → (shiftByImmediate sh w 0 c).value.getLsbD i = shiftBit sh w 32 i)
    ∧ (shiftByImmediate sh w 0 c).carry = shiftCarry sh w 32 c)
  ∧ ∀ (w : Word) (c : Bool),
    (∀ i, i < 31 → (shiftByImmediate .ror w 0 c).value.getLsbD i = w.getLsbD (i + 1))
    ∧ (shiftByImmediate .ror w 0 c).value.getLsbD 31 = c ∧ (shiftByImmediate .ror w 0 c).carry = w.getLsbD 0

/-- MOV and ORR to a register other than R15, in their three operand forms: the result, with S = 1 the flags N, Z and
C, and nothing else (rules R270, R272). -/
def Obligations.MovAndOrrGiveResultAndFlags : Prop :=
  (∀ (i : Instr) (c : Cond) (f : Bool) (rd : Reg) (op : Shifted) (s : State),
    ((∃ rot imm, i = .movImm c f rd rot imm ∧ op = immediateOperand rot imm s.c)
      ∨ (∃ n sh rm, i = .movShiftImm c f rd n sh rm ∧ op = shiftByImmediate sh (s.reg rm) n s.c)
      ∨ (∃ rs sh rm, i = .movShiftReg c f rd rs sh rm ∧ op = shiftByRegister sh (s.reg rm) (s.reg rs) s.c
        ∧ rs ≠ Reg.pc ∧ rm ≠ Reg.pc)) →
    conditionPassed c s = true → rd ≠ Reg.pc →
    ∃ t, exec i s = .next t ∧ t.reg rd = op.value ∧ Advanced s t ∧ RegisterFrame [rd] s t
      ∧ (f = false → t.cpsr = s.cpsr)
      ∧ (f = true → t.n = op.value.getLsbD 31 ∧ (t.z = true ↔ op.value = 0) ∧ t.c = op.carry ∧ CpsrKeptBelow 29 s t))
  ∧ (∀ (i : Instr) (c : Cond) (f : Bool) (rn rd : Reg) (op : Shifted) (s : State),
    ((∃ rot imm, i = .orrImm c f rn rd rot imm ∧ op = immediateOperand rot imm s.c)
      ∨ (∃ n sh rm, i = .orrShiftImm c f rn rd n sh rm ∧ op = shiftByImmediate sh (s.reg rm) n s.c)
      ∨ (∃ rs sh rm, i = .orrShiftReg c f rn rd rs sh rm ∧ op = shiftByRegister sh (s.reg rm) (s.reg rs) s.c
        ∧ rn ≠ Reg.pc ∧ rs ≠ Reg.pc ∧ rm ≠ Reg.pc)) →
    conditionPassed c s = true → rd ≠ Reg.pc →
    ∃ t, exec i s = .next t
      ∧ (∀ k, k < 32 → (t.reg rd).getLsbD k = ((s.reg rn).getLsbD k || op.value.getLsbD k))
      ∧ Advanced s t ∧ RegisterFrame [rd] s t
      ∧ (f = false → t.cpsr = s.cpsr)
      ∧ (f = true → t.n = (t.reg rd).getLsbD 31 ∧ (t.z = true ↔ t.reg rd = 0) ∧ t.c = op.carry ∧ CpsrKeptBelow 29 s t))

/-- ADD and SUB to a register other than R15, in their three operand forms: the result modulo 2^32, with S = 1 the
four flags, and nothing else (rules R271, R273). -/
def Obligations.AddAndSubGiveResultAndFlags : Prop :=
  (∀ (i : Instr) (c : Cond) (f : Bool) (rn rd : Reg) (op : Shifted) (s : State),
    ((∃ rot imm, i = .addImm c f rn rd rot imm ∧ op = immediateOperand rot imm s.c)
      ∨ (∃ n sh rm, i = .addShiftImm c f rn rd n sh rm ∧ op = shiftByImmediate sh (s.reg rm) n s.c)
      ∨ (∃ rs sh rm, i = .addShiftReg c f rn rd rs sh rm ∧ op = shiftByRegister sh (s.reg rm) (s.reg rs) s.c
        ∧ rn ≠ Reg.pc ∧ rs ≠ Reg.pc ∧ rm ≠ Reg.pc)) →
    conditionPassed c s = true → rd ≠ Reg.pc →
    ∃ t, exec i s = .next t ∧ (t.reg rd).toNat = ((s.reg rn).toNat + op.value.toNat) % 4294967296
      ∧ Advanced s t ∧ RegisterFrame [rd] s t
      ∧ (f = false → t.cpsr = s.cpsr)
      ∧ (f = true → t.n = (t.reg rd).getLsbD 31 ∧ (t.z = true ↔ t.reg rd = 0)
        ∧ (t.c = true ↔ 4294967296 ≤ (s.reg rn).toNat + op.value.toNat)
        ∧ (t.v = true ↔ (s.reg rn).toInt + op.value.toInt < -2147483648
            ∨ 2147483647 < (s.reg rn).toInt + op.value.toInt)
        ∧ CpsrKeptBelow 28 s t))
  ∧ (∀ (i : Instr) (c : Cond) (f : Bool) (rn rd : Reg) (op : Shifted) (s : State),
    ((∃ rot imm, i = .subImm c f rn rd rot imm ∧ op = immediateOperand rot imm s.c)
      ∨ (∃ n sh rm, i = .subShiftImm c f rn rd n sh rm ∧ op = shiftByImmediate sh (s.reg rm) n s.c)
      ∨ (∃ rs sh rm, i = .subShiftReg c f rn rd rs sh rm ∧ op = shiftByRegister sh (s.reg rm) (s.reg rs) s.c
        ∧ rn ≠ Reg.pc ∧ rs ≠ Reg.pc ∧ rm ≠ Reg.pc)) →
    conditionPassed c s = true → rd ≠ Reg.pc →
    ∃ t, exec i s = .next t
      ∧ ((t.reg rd).toNat : Int) = ((s.reg rn).toNat - op.value.toNat : Int) % 4294967296
      ∧ Advanced s t ∧ RegisterFrame [rd] s t
      ∧ (f = false → t.cpsr = s.cpsr)
      ∧ (f = true → t.n = (t.reg rd).getLsbD 31 ∧ (t.z = true ↔ t.reg rd = 0)
        ∧ (t.c = true ↔ op.value.toNat ≤ (s.reg rn).toNat)
        ∧ (t.v = true ↔ (s.reg rn).toInt - op.value.toInt < -2147483648
            ∨ 2147483647 < (s.reg rn).toInt - op.value.toInt)
        ∧ CpsrKeptBelow 28 s t))

/-- A data-processing instruction that writes R15 with S = 0 transfers control to its result, which must be a multiple
of 4; the T bit and everything else stay (rules R274, R300). -/
def Obligations.DataProcessingBranchTransfers : Prop :=
  ∀ (i : Instr) (c : Cond) (rn : Reg) (r : Word) (s : State),
    ((∃ rot imm, i = .movImm c false Reg.pc rot imm ∧ r = (immediateOperand rot imm s.c).value)
      ∨ (∃ n sh rm, i = .movShiftImm c false Reg.pc n sh rm ∧ r = (shiftByImmediate sh (s.reg rm) n s.c).value)
      ∨ (∃ rot imm, i = .addImm c false rn Reg.pc rot imm ∧ r = s.reg rn + (immediateOperand rot imm s.c).value)
      ∨ (∃ n sh rm, i = .addShiftImm c false rn Reg.pc n sh rm
        ∧ r = s.reg rn + (shiftByImmediate sh (s.reg rm) n s.c).value)
      ∨ (∃ rot imm, i = .subImm c false rn Reg.pc rot imm ∧ r = s.reg rn - (immediateOperand rot imm s.c).value)
      ∨ (∃ n sh rm, i = .subShiftImm c false rn Reg.pc n sh rm
        ∧ r = s.reg rn - (shiftByImmediate sh (s.reg rm) n s.c).value)
      ∨ (∃ rot imm, i = .orrImm c false rn Reg.pc rot imm ∧ r = s.reg rn ||| (immediateOperand rot imm s.c).value)
      ∨ (∃ n sh rm, i = .orrShiftImm c false rn Reg.pc n sh rm
        ∧ r = s.reg rn ||| (shiftByImmediate sh (s.reg rm) n s.c).value)) →
    conditionPassed c s = true →
    (r.toNat % 4 = 0 → ∃ t, exec i s = .next t ∧ Transferred r s t ∧ t.cpsr = s.cpsr ∧ RegisterFrame [] s t)
    ∧ (r.toNat % 4 ≠ 0 → exec i s = .refused .unalignedBranch)

/-- Return from an exception: a data-processing instruction that writes R15 with S = 1 copies the SPSR of the mode to
the CPSR and transfers control to its result in one step; in User and System mode, which have no SPSR, with an SPSR
that names no mode, and to a misaligned target it is UNPREDICTABLE (rules R274, R335). That a return which restores T
= 1 completes, where decision D3 refuses it, is the model's choice (log 15), as is the alignment of its target (log
37). -/
def Obligations.ExceptionReturnRestoresStatus : Prop :=
  ∀ (i : Instr) (c : Cond) (rn : Reg) (r : Word) (s : State),
    ((∃ rot imm, i = .movImm c true Reg.pc rot imm ∧ r = (immediateOperand rot imm s.c).value)
      ∨ (∃ n sh rm, i = .movShiftImm c true Reg.pc n sh rm ∧ r = (shiftByImmediate sh (s.reg rm) n s.c).value)
      ∨ (∃ rot imm, i = .addImm c true rn Reg.pc rot imm ∧ r = s.reg rn + (immediateOperand rot imm s.c).value)
      ∨ (∃ n sh rm, i = .addShiftImm c true rn Reg.pc n sh rm
        ∧ r = s.reg rn + (shiftByImmediate sh (s.reg rm) n s.c).value)
      ∨ (∃ rot imm, i = .subImm c true rn Reg.pc rot imm ∧ r = s.reg rn - (immediateOperand rot imm s.c).value)
      ∨ (∃ n sh rm, i = .subShiftImm c true rn Reg.pc n sh rm
        ∧ r = s.reg rn - (shiftByImmediate sh (s.reg rm) n s.c).value)
      ∨ (∃ rot imm, i = .orrImm c true rn Reg.pc rot imm ∧ r = s.reg rn ||| (immediateOperand rot imm s.c).value)
      ∨ (∃ n sh rm, i = .orrShiftImm c true rn Reg.pc n sh rm
        ∧ r = s.reg rn ||| (shiftByImmediate sh (s.reg rm) n s.c).value)) →
    conditionPassed c s = true →
    (∀ psr m, s.spsr s.mode = some psr → psrMode psr = some m →
      (r.toNat % 4 = 0 ∨ (psr.getLsbD 5 = true ∧ r.toNat % 2 = 0)) →
      ∃ t, exec i s = .next t ∧ t.cpsr = psr ∧ Transferred r s t ∧ RegisterFrame [] s t)
    ∧ (s.mode = .usr ∨ s.mode = .sys → exec i s = .refused .noSpsr)
    ∧ (∀ psr, s.spsr s.mode = some psr → psrMode psr = none → exec i s = .refused .unpredictableMode)
    ∧ (∀ psr m, s.spsr s.mode = some psr → psrMode psr = some m →
      (r.toNat % 2 = 1 ∨ (psr.getLsbD 5 = false ∧ r.toNat % 4 ≠ 0)) → exec i s = .refused .unalignedBranch)

/-! ## Multiplies, saturating arithmetic, CLZ -/

/-- MLA (rule R290): its encoding; the sum modulo 2^32; with S = 1 N and Z, C and V as they were; R15 in a field and
Rd = Rm are UNPREDICTABLE. -/
def Obligations.MlaGivesSumAndFlags : Prop :=
  (∀ c (f : Bool) rd rn rs rm,
    decodeWord (c.toBits ++ 0b0000001#7 ++ BitVec.ofBool f ++ rd ++ rn ++ rs ++ 0b1001#4 ++ rm)
      = .ok (.mla c f rd rn rs rm))
  ∧ (∀ c f rd rn rs rm s, conditionPassed c s = true →
      rd = Reg.pc ∨ rn = Reg.pc ∨ rs = Reg.pc ∨ rm = Reg.pc ∨ rd = rm →
      exec (.mla c f rd rn rs rm) s = .refused .unpredictableRegisters)
  ∧ ∀ c f rd rn rs rm s, conditionPassed c s = true →
    rd ≠ Reg.pc → rn ≠ Reg.pc → rs ≠ Reg.pc → rm ≠ Reg.pc → rd ≠ rm →
    ∃ t, exec (.mla c f rd rn rs rm) s = .next t
      ∧ (t.reg rd).toNat = ((s.reg rm).toNat * (s.reg rs).toNat + (s.reg rn).toNat) % 4294967296
      ∧ Advanced s t ∧ RegisterFrame [rd] s t
      ∧ (f = false → t.cpsr = s.cpsr)
      ∧ (f = true → t.n = (t.reg rd).getLsbD 31 ∧ (t.z = true ↔ t.reg rd = 0) ∧ CpsrKeptBelow 30 s t)

/-- SMLA<x><y> and SMLAW<y> (rules R182, R183): their encodings; the exact product of two halves, or bits 47:16 of the
product of a word and a half, plus the addend, modulo 2^32; Q set if the sum does not fit, and never cleared. -/
def Obligations.SmlaAndSmlawGiveSumAndQ : Prop :=
  ((∀ c rd rn rs y x rm,
    decodeWord (c.toBits ++ 0x10#8 ++ rd ++ rn ++ rs ++ 1#1 ++ BitVec.ofBool (Half.toBit y)
      ++ BitVec.ofBool (Half.toBit x) ++ 0#1 ++ rm) = .ok (.smla c rd rn rs y x rm))
  ∧ (∀ x y v w, fits32 (halfProduct x v y w) = true)
  ∧ ∀ c rd rn rs y x rm s, conditionPassed c s = true →
    rd ≠ Reg.pc → rn ≠ Reg.pc → rs ≠ Reg.pc → rm ≠ Reg.pc →
    ∃ t, exec (.smla c rd rn rs y x rm) s = .next t
      ∧ ((t.reg rd).toNat : Int) =
        ((halfOf x (s.reg rm)).toInt * (halfOf y (s.reg rs)).toInt + (s.reg rn).toInt) % 4294967296
      ∧ (t.q = true ↔ s.q = true
        ∨ (halfOf x (s.reg rm)).toInt * (halfOf y (s.reg rs)).toInt + (s.reg rn).toInt < -2147483648
        ∨ 2147483647 < (halfOf x (s.reg rm)).toInt * (halfOf y (s.reg rs)).toInt + (s.reg rn).toInt)
      ∧ (∀ k, k ≠ 27 → t.cpsr.getLsbD k = s.cpsr.getLsbD k) ∧ Advanced s t ∧ RegisterFrame [rd] s t)
  ∧ ((∀ c rd rn rs y rm,
    decodeWord (c.toBits ++ 0x12#8 ++ rd ++ rn ++ rs ++ 1#1 ++ BitVec.ofBool (Half.toBit y) ++ 0#2 ++ rm)
      = .ok (.smlaw c rd rn rs y rm))
  ∧ (∀ y v w, fits32 (wordHalfProduct v y w / 65536) = true)
  ∧ ∀ c rd rn rs y rm s, conditionPassed c s = true →
    rd ≠ Reg.pc → rn ≠ Reg.pc → rs ≠ Reg.pc → rm ≠ Reg.pc →
    ∃ t, exec (.smlaw c rd rn rs y rm) s = .next t
      ∧ ((t.reg rd).toNat : Int) =
        ((s.reg rm).toInt * (halfOf y (s.reg rs)).toInt / 65536 + (s.reg rn).toInt) % 4294967296
      ∧ (t.q = true ↔ s.q = true
        ∨ (s.reg rm).toInt * (halfOf y (s.reg rs)).toInt / 65536 + (s.reg rn).toInt < -2147483648
        ∨ 2147483647 < (s.reg rm).toInt * (halfOf y (s.reg rs)).toInt / 65536 + (s.reg rn).toInt)
      ∧ (∀ k, k ≠ 27 → t.cpsr.getLsbD k = s.cpsr.getLsbD k) ∧ Advanced s t ∧ RegisterFrame [rd] s t)

/-- SMULW<y>, SMUL<x><y> and SMLAL<x><y> (rules R184 to R186): their encodings; bits 47:16 of a word times a half; the
whole product of two halves; a product of halves added to a 64-bit value modulo 2^64; no flag; RdHi = RdLo is
UNPREDICTABLE. -/
def Obligations.SmulAndSmlalGiveProducts : Prop :=
  ((∀ c rd rs y rm,
    decodeWord (c.toBits ++ 0x12#8 ++ rd ++ 0#4 ++ rs ++ 1#1 ++ BitVec.ofBool (Half.toBit y) ++ 0b10#2 ++ rm)
      = .ok (.smulw c rd rs y rm))
  ∧ (∀ c rd rs y x rm,
    decodeWord (c.toBits ++ 0x16#8 ++ rd ++ 0#4 ++ rs ++ 1#1 ++ BitVec.ofBool (Half.toBit y)
      ++ BitVec.ofBool (Half.toBit x) ++ 0#1 ++ rm) = .ok (.smul c rd rs y x rm))
  ∧ (∀ c rd rs y rm s, conditionPassed c s = true → rd ≠ Reg.pc → rs ≠ Reg.pc → rm ≠ Reg.pc →
    ∃ t, exec (.smulw c rd rs y rm) s = .next t
      ∧ (t.reg rd).toInt = (s.reg rm).toInt * (halfOf y (s.reg rs)).toInt / 65536
      ∧ t.cpsr = s.cpsr ∧ Advanced s t ∧ RegisterFrame [rd] s t)
  ∧ ∀ c rd rs y x rm s, conditionPassed c s = true → rd ≠ Reg.pc → rs ≠ Reg.pc → rm ≠ Reg.pc →
    ∃ t, exec (.smul c rd rs y x rm) s = .next t
      ∧ (t.reg rd).toInt = (halfOf x (s.reg rm)).toInt * (halfOf y (s.reg rs)).toInt
      ∧ t.cpsr = s.cpsr ∧ Advanced s t ∧ RegisterFrame [rd] s t)
  ∧ ((∀ c hi lo rs y x rm,
    decodeWord (c.toBits ++ 0x14#8 ++ hi ++ lo ++ rs ++ 1#1 ++ BitVec.ofBool (Half.toBit y)
      ++ BitVec.ofBool (Half.toBit x) ++ 0#1 ++ rm) = .ok (.smlal c hi lo rs y x rm))
  ∧ (∀ c r rs y x rm s, conditionPassed c s = true →
      exec (.smlal c r r rs y x rm) s = .refused .unpredictableRegisters)
  ∧ ∀ c hi lo rs y x rm s, conditionPassed c s = true →
    hi ≠ Reg.pc → lo ≠ Reg.pc → rs ≠ Reg.pc → rm ≠ Reg.pc → hi ≠ lo →
    ∃ t, exec (.smlal c hi lo rs y x rm) s = .next t
      ∧ ((t.reg hi).toNat * 4294967296 + (t.reg lo).toNat : Int) =
        ((s.reg hi).toNat * 4294967296 + (s.reg lo).toNat
          + (halfOf x (s.reg rm)).toInt * (halfOf y (s.reg rs)).toInt) % 18446744073709551616
      ∧ t.cpsr = s.cpsr ∧ Advanced s t ∧ RegisterFrame [hi, lo] s t)

/-- QADD, QSUB, QDADD and QDSUB (rules R187 to R190): their encodings; the exact sum or difference, of Rn or of Rn
doubled and clamped, clamped to the signed 32-bit range; Q is set if a clamp happened, and never cleared. -/
def Obligations.SaturatingArithmeticClampsAndSetsQ : Prop :=
  ((∀ c rn rd rm, decodeWord (c.toBits ++ 0x10#8 ++ rn ++ rd ++ 0x05#8 ++ rm) = .ok (.qadd c rn rd rm)
    ∧ decodeWord (c.toBits ++ 0x12#8 ++ rn ++ rd ++ 0x05#8 ++ rm) = .ok (.qsub c rn rd rm))
  ∧ ∀ (i : Instr) (c : Cond) (rn rd rm : Reg) (e : Int) (s : State),
    ((i = .qadd c rn rd rm ∧ e = (s.reg rm).toInt + (s.reg rn).toInt)
      ∨ (i = .qsub c rn rd rm ∧ e = (s.reg rm).toInt - (s.reg rn).toInt)) →
    conditionPassed c s = true → rn ≠ Reg.pc → rd ≠ Reg.pc → rm ≠ Reg.pc →
    ∃ t, exec i s = .next t
      ∧ (t.reg rd).toInt = max (-2147483648) (min 2147483647 e)
      ∧ (t.q = true ↔ s.q = true ∨ e < -2147483648 ∨ 2147483647 < e)
      ∧ (∀ k, k ≠ 27 → t.cpsr.getLsbD k = s.cpsr.getLsbD k) ∧ Advanced s t ∧ RegisterFrame [rd] s t)
  ∧ ((∀ c rn rd rm, decodeWord (c.toBits ++ 0x14#8 ++ rn ++ rd ++ 0x05#8 ++ rm) = .ok (.qdadd c rn rd rm)
    ∧ decodeWord (c.toBits ++ 0x16#8 ++ rn ++ rd ++ 0x05#8 ++ rm) = .ok (.qdsub c rn rd rm))
  ∧ ∀ (i : Instr) (c : Cond) (rn rd rm : Reg) (d e : Int) (s : State),
    d = max (-2147483648) (min 2147483647 (2 * (s.reg rn).toInt)) →
    ((i = .qdadd c rn rd rm ∧ e = (s.reg rm).toInt + d) ∨ (i = .qdsub c rn rd rm ∧ e = (s.reg rm).toInt - d)) →
    conditionPassed c s = true → rn ≠ Reg.pc → rd ≠ Reg.pc → rm ≠ Reg.pc →
    ∃ t, exec i s = .next t
      ∧ (t.reg rd).toInt = max (-2147483648) (min 2147483647 e)
      ∧ (t.q = true ↔ s.q = true ∨ d ≠ 2 * (s.reg rn).toInt ∨ e < -2147483648 ∨ 2147483647 < e)
      ∧ (∀ k, k ≠ 27 → t.cpsr.getLsbD k = s.cpsr.getLsbD k) ∧ Advanced s t ∧ RegisterFrame [rd] s t)

/-- CLZ (rule R304): its encoding; 32 for zero, else 31 minus the index of the most significant 1 bit; no flag; R15 in
a field is UNPREDICTABLE. -/
def Obligations.ClzCountsLeadingZeros : Prop :=
  (∀ c rd rm, decodeWord (c.toBits ++ 0x16F#12 ++ rd ++ 0xF1#8 ++ rm) = .ok (.clz c rd rm))
  ∧ (∀ c rd rm s, conditionPassed c s = true → rd = Reg.pc ∨ rm = Reg.pc →
      exec (.clz c rd rm) s = .refused .unpredictableRegisters)
  ∧ ∀ c rd rm s, conditionPassed c s = true → rd ≠ Reg.pc → rm ≠ Reg.pc →
    ∃ t, exec (.clz c rd rm) s = .next t
      ∧ (s.reg rm = 0 → (t.reg rd).toNat = 32)
      ∧ (∀ k, k < 32 → (s.reg rm).getLsbD k = true → (∀ j, k < j → (s.reg rm).getLsbD j = false) →
          (t.reg rd).toNat = 31 - k)
      ∧ t.cpsr = s.cpsr ∧ Advanced s t ∧ RegisterFrame [rd] s t

/-- N, Z, C and V change only by an instruction with S = 1, MSR to the CPSR, MRC to R15, and Q is cleared only by an
instruction that writes the CPSR; no exception entry changes any of them (rules R27, R181, R330). -/
def Obligations.FlagsChangeOnlyByTheirWriters : Prop :=
  ∀ (i : Instr) (s t : State), exec i s = .next t →
    (i.writesConditionFlags = false → t.n = s.n ∧ t.z = s.z ∧ t.c = s.c ∧ t.v = s.v)
    ∧ (i.writesStatus = false → s.q = true → t.q = true)

/-! ## Branches and the software interrupt -/

/-- B and BL (rules R298, R299): their encodings; the target from the program counter and the sign-extended word
offset, modulo 2^32; BL leaves the address of the next instruction in R14. -/
def Obligations.BranchAndLinkTransfer : Prop :=
  (∀ (c : Cond) (imm : BitVec 24), decodeWord (c.toBits ++ 0xA#4 ++ imm) = .ok (.b c imm)
    ∧ decodeWord (c.toBits ++ 0xB#4 ++ imm) = .ok (.bl c imm))
  ∧ ∀ (c : Cond) (imm : BitVec 24) (s : State) (target : Word), conditionPassed c s = true →
    (target.toNat : Int) = (s.pc.toNat + 8 + 4 * imm.toInt) % 4294967296 →
    (∃ t, exec (.b c imm) s = .next t ∧ Transferred target s t ∧ t.cpsr = s.cpsr ∧ RegisterFrame [] s t)
    ∧ ∃ t, exec (.bl c imm) s = .next t ∧ Transferred target s t ∧ t.reg Reg.lr = s.pc + 4 ∧ t.cpsr = s.cpsr
      ∧ RegisterFrame [Reg.lr] s t

/-- BLX with an immediate, BX and BLX with a register (rules R300 to R303): their encodings; bit 0 of a register
target becomes T and is cleared in the address, bits 1:0 = `0b10` are UNPREDICTABLE; BLX leaves the address of the
next instruction in R14, which is then its target where its register is R14. That a transfer which sets T completes,
where decision D3 refuses it, is the model's choice (log 15). -/
def Obligations.BranchAndExchangeSetT : Prop :=
  ((∀ (h : Bool) (imm : BitVec 24), decodeWord (0b1111101#7 ++ BitVec.ofBool h ++ imm) = .ok (.blxImm h imm))
  ∧ ∀ (h : Bool) (imm : BitVec 24) (s : State),
    ∃ t, exec (.blxImm h imm) s = .next t
      ∧ (t.pc.toNat : Int) = (s.pc.toNat + 8 + 4 * imm.toInt + 2 * h.toNat) % 4294967296
      ∧ t.pastTop = false ∧ t.reg Reg.lr = s.pc + 4 ∧ t.thumb = true
      ∧ (∀ k, k ≠ 5 → t.cpsr.getLsbD k = s.cpsr.getLsbD k) ∧ RegisterFrame [Reg.lr] s t)
  ∧ ((∀ c rm, decodeWord (c.toBits ++ 0x12FFF1#24 ++ rm) = .ok (.bx c rm)
    ∧ decodeWord (c.toBits ++ 0x12FFF3#24 ++ rm) = .ok (.blxReg c rm))
  ∧ ∀ (i : Instr) (c : Cond) (rm : Reg) (v : Word) (links : List Reg) (s : State),
    ((i = .bx c rm ∧ links = [] ∧ v = s.reg rm)
      ∨ (i = .blxReg c rm ∧ links = [Reg.lr] ∧ rm ≠ Reg.pc ∧ v = if rm = Reg.lr then s.pc + 4 else s.reg rm)) →
    conditionPassed c s = true →
    (v.toNat % 4 = 2 → exec i s = .refused .unalignedBranch)
    ∧ (v.toNat % 4 ≠ 2 →
      ∃ t, exec i s = .next t ∧ t.pc.toNat = v.toNat / 2 * 2 ∧ t.pastTop = false
        ∧ t.thumb = v.getLsbD 0 ∧ (Reg.lr ∈ links → t.reg Reg.lr = s.pc + 4)
        ∧ (∀ k, k ≠ 5 → t.cpsr.getLsbD k = s.cpsr.getLsbD k) ∧ RegisterFrame links s t))

/-- SWI takes the Software Interrupt exception, whatever its field holds; MCRR and MRRC to a coprocessor other than 0
take the Undefined Instruction exception; nothing else changes (rules R203, R305, R356, R357, decision D21). -/
def Obligations.SoftwareInterruptAndTwoRegisterTraps : Prop :=
  (∀ (c : Cond) (imm : BitVec 24) (s : State), conditionPassed c s = true →
    ∃ t, exec (.swi c imm) s = .next t ∧ Entered .swi (s.pc + 4) s t ∧ FaultRegistersKept s t)
  ∧ ∀ (i : Instr) (c : Cond) (rn rd cp op crm : BitVec 4) (s : State),
    i = .mcrr c rn rd cp op crm ∨ i = .mrrc c rn rd cp op crm → conditionPassed c s = true →
    ∃ t, exec i s = .next t ∧ Entered .undefined (s.pc + 4) s t ∧ FaultRegistersKept s t

/-! ## Status registers -/

/-- MRS (rule R306): the CPSR in every mode; the SPSR of the mode that has one; in User and System mode reading it is
UNPREDICTABLE. -/
def Obligations.MrsReadsStatus : Prop :=
  ∀ (c : Cond) (rd : Reg) (s : State), conditionPassed c s = true → rd ≠ Reg.pc →
    (∃ t, exec (.mrs c false rd) s = .next t ∧ t.reg rd = s.cpsr ∧ t.cpsr = s.cpsr ∧ Advanced s t
      ∧ RegisterFrame [rd] s t)
    ∧ (∀ v, s.spsr s.mode = some v → ∃ t, exec (.mrs c true rd) s = .next t ∧ t.reg rd = v ∧ t.cpsr = s.cpsr
      ∧ Advanced s t ∧ RegisterFrame [rd] s t)
    ∧ (s.mode = .usr ∨ s.mode = .sys → exec (.mrs c true rd) s = .refused .noSpsr)

/-- MSR (rule R307): the bytes the field mask selects are replaced in the CPSR, in User mode the flags byte alone, or
in the SPSR of the mode; a mode number that names no mode, a change of the T bit, and the SPSR of User or System mode
are UNPREDICTABLE. That an MSR which writes the reserved bits 26:8 other than 0 completes is the model's choice (log
38), and so is that bit 5 of an SPSR can change (log 44). -/
def Obligations.MsrWritesFields : Prop :=
  (∀ (i : Instr) (c : Cond) (mask : BitVec 4) (v r : Word) (s : State),
    ((∃ rm, i = .msrReg c false mask rm ∧ v = s.reg rm)
      ∨ (∃ rot imm, i = .msrImm c false mask rot imm ∧ v = (immediateOperand rot imm s.c).value)) →
    conditionPassed c s = true →
    (∀ k, k < 32 → r.getLsbD k =
      if mask.getLsbD (k / 8) = true ∧ (s.privileged = true ∨ 24 ≤ k) then v.getLsbD k else s.cpsr.getLsbD k) →
    (psrMode r ≠ none → r.getLsbD 5 = s.thumb →
      ∃ t, exec i s = .next t ∧ t.cpsr = r ∧ Advanced s t ∧ RegisterFrame [] s t)
    ∧ (s.privileged = true → mask.getLsbD 0 = true → psrMode r = none → exec i s = .refused .unpredictableMode)
    ∧ (psrMode r ≠ none → r.getLsbD 5 ≠ s.thumb → exec i s = .refused .unpredictableTChange))
  ∧ (∀ (i : Instr) (c : Cond) (mask : BitVec 4) (v : Word) (s : State),
    ((∃ rm, i = .msrReg c true mask rm ∧ v = s.reg rm)
      ∨ (∃ rot imm, i = .msrImm c true mask rot imm ∧ v = (immediateOperand rot imm s.c).value)) →
    conditionPassed c s = true →
    (s.mode = .usr ∨ s.mode = .sys → exec i s = .refused .noSpsr)
    ∧ ∀ old, s.spsr s.mode = some old →
      ∃ t new, exec i s = .next t ∧ t.spsr s.mode = some new
        ∧ (∀ k, k < 32 → new.getLsbD k = if mask.getLsbD (k / 8) = true then v.getLsbD k else old.getLsbD k)
        ∧ (∀ m, m ≠ s.mode → t.spsr m = s.spsr m) ∧ t.cpsr = s.cpsr ∧ t.gpr = s.gpr ∧ t.acc0 = s.acc0
        ∧ t.cp15 = s.cp15 ∧ t.eff = s.eff ∧ FaultRegistersKept s t ∧ t.pending = s.pending ∧ t.itlb = s.itlb
        ∧ DataKept s t ∧ Advanced s t)

/-! ## Loads, stores, swaps -/

/-- LDR (rules R149, R280): an aligned word read at the physical address its address translates to, into Rd; the base
written back where the form asks for it; loaded into R15 it transfers control, with bit 0 as the new T bit, and bits
1:0 = `0b10` are UNPREDICTABLE. That a load of R15 which sets T completes, where decision D3 refuses it, is the
model's choice (log 15). The environment reports no error. -/
def Obligations.LdrLoadsWord : Prop :=
  ∀ (i : Instr) (c : Cond) (m : Index) (u : Bool) (rn rd : Reg) (ea : Address) (s : State) (a : Access) (v : Word),
    ((∃ off, i = .ldrImm c m u rn rd off ∧ ea = immediateAddress s m u rn off)
      ∨ (∃ n sh rm, i = .ldrReg c m u rn rd n sh rm ∧ ea = scaledAddress s m u rn n sh rm)) →
    conditionPassed c s = true → i.predictable = true → ea.address.toNat % 4 = 0 → s.NoDataError →
    dataTranslate false ea.address ea.address s = .ok a → v = Memory.readWord s.mem a.pa.toNat →
    (rd ≠ Reg.pc → ∃ t, exec i s = .next t ∧ t.reg rd = v ∧ BaseAfter rn ea t ∧ t.cpsr = s.cpsr ∧ Advanced s t
      ∧ AccessFrame (writtenWith rn ea [rd]) 0 0 a.state s t ∧ t.stored = s.stored ∧ t.dirty = s.dirty
      ∧ t.subWord = s.subWord)
    ∧ (rd = Reg.pc → v.toNat % 4 ≠ 2 → ∃ t, exec i s = .next t ∧ t.pc.toNat = v.toNat / 2 * 2 ∧ t.pastTop = false
      ∧ t.thumb = v.getLsbD 0 ∧ (∀ k, k ≠ 5 → t.cpsr.getLsbD k = s.cpsr.getLsbD k) ∧ BaseAfter rn ea t
      ∧ AccessFrame (writtenWith rn ea []) 0 0 a.state s t ∧ t.stored = s.stored ∧ t.dirty = s.dirty
      ∧ t.subWord = s.subWord)
    ∧ (rd = Reg.pc → v.toNat % 4 = 2 → exec i s = .refused .unalignedBranch)

/-- STR (rules R149, R281): Rd stored as a word at the physical address its address translates to, every other byte of
memory as it was; R15 stores its address plus 8 or plus 12 (log 33). -/
def Obligations.StrStoresWord : Prop :=
  ∀ (i : Instr) (c : Cond) (m : Index) (u : Bool) (rn rd : Reg) (ea : Address) (s : State) (a : Access),
    ((∃ off, i = .strImm c m u rn rd off ∧ ea = immediateAddress s m u rn off)
      ∨ (∃ n sh rm, i = .strReg c m u rn rd n sh rm ∧ ea = scaledAddress s m u rn n sh rm)) →
    conditionPassed c s = true → i.predictable = true → ea.address.toNat % 4 = 0 → s.NoDataError →
    s.MemoryCanonical → dataTranslate true ea.address ea.address s = .ok a →
    ∃ t, exec i s = .next t
      ∧ (rd ≠ Reg.pc → Memory.readWord t.mem a.pa.toNat = s.reg rd)
      ∧ (rd = Reg.pc → Memory.readWord t.mem a.pa.toNat = s.pc + 8 ∨ Memory.readWord t.mem a.pa.toNat = s.pc + 12)
      ∧ BaseAfter rn ea t ∧ t.cpsr = s.cpsr ∧ Advanced s t
      ∧ AccessFrame (writtenWith rn ea []) a.pa.toNat 4 a.state s t ∧ t.subWord = s.subWord

/-- LDRSH (rules R72, R149, R287): the half of the aligned word that the byte order selects, sign-extended. -/
def Obligations.LdrshLoadsSignedHalf : Prop :=
  ∀ (i : Instr) (c : Cond) (m : Index) (u : Bool) (rn rd : Reg) (ea : Address) (s : State) (a : Access) (w : Word),
    ((∃ off, i = .ldrshImm c m u rn rd off ∧ ea = immediateAddress s m u rn off)
      ∨ (∃ rm, i = .ldrshReg c m u rn rd rm ∧ ea = registerAddress s m u rn rm)) →
    conditionPassed c s = true → i.predictable = true → ea.address.toNat % 2 = 0 → s.NoDataError →
    dataTranslate false ea.address ea.address s = .ok a →
    w = Memory.readWord s.mem (a.pa.toNat / 4 * 4) →
    ∃ t, exec i s = .next t
      ∧ (s.bigEndian = a.pa.getLsbD 1 → (t.reg rd).toInt = (w.extractLsb' 0 16).toInt)
      ∧ (s.bigEndian ≠ a.pa.getLsbD 1 → (t.reg rd).toInt = (w.extractLsb' 16 16).toInt)
      ∧ BaseAfter rn ea t ∧ t.cpsr = s.cpsr ∧ Advanced s t
      ∧ AccessFrame (writtenWith rn ea [rd]) 0 0 a.state s t ∧ t.stored = s.stored ∧ t.dirty = s.dirty
      ∧ t.subWord = true

/-- LDRD and STRD (rules R72, R149, R191, R192): Rd and the word at the address, Rd + 1 and the next word, in both
byte orders; every other byte of memory as it was. -/
def Obligations.LdrdAndStrdMoveTwoWords : Prop :=
  (∀ (i : Instr) (c : Cond) (m : Index) (u : Bool) (rn rd : Reg) (ea : Address) (s : State) (a : Access),
    ((∃ off, i = .ldrdImm c m u rn rd off ∧ ea = immediateAddress s m u rn off)
      ∨ (∃ rm, i = .ldrdReg c m u rn rd rm ∧ ea = registerAddress s m u rn rm)) →
    conditionPassed c s = true → i.predictable = true → ea.address.toNat % 8 = 0 → s.NoDataError →
    dataTranslate false ea.address ea.address s = .ok a →
    ∃ t, exec i s = .next t ∧ t.reg rd = Memory.readWord s.mem a.pa.toNat
      ∧ t.reg (rd + 1) = Memory.readWord s.mem (a.pa.toNat + 4)
      ∧ BaseAfter rn ea t ∧ t.cpsr = s.cpsr ∧ Advanced s t
      ∧ AccessFrame (writtenWith rn ea [rd, rd + 1]) 0 0 a.state s t ∧ t.stored = s.stored ∧ t.dirty = s.dirty
      ∧ t.subWord = s.subWord)
  ∧ (∀ (i : Instr) (c : Cond) (m : Index) (u : Bool) (rn rd : Reg) (ea : Address) (s : State) (a : Access),
    ((∃ off, i = .strdImm c m u rn rd off ∧ ea = immediateAddress s m u rn off)
      ∨ (∃ rm, i = .strdReg c m u rn rd rm ∧ ea = registerAddress s m u rn rm)) →
    conditionPassed c s = true → i.predictable = true → ea.address.toNat % 8 = 0 → s.NoDataError →
    s.MemoryCanonical → dataTranslate true ea.address ea.address s = .ok a →
    ∃ t, exec i s = .next t ∧ Memory.readWord t.mem a.pa.toNat = s.reg rd
      ∧ Memory.readWord t.mem (a.pa.toNat + 4) = s.reg (rd + 1)
      ∧ BaseAfter rn ea t ∧ t.cpsr = s.cpsr ∧ Advanced s t
      ∧ AccessFrame (writtenWith rn ea []) a.pa.toNat 8 a.state s t ∧ t.subWord = s.subWord)

/-- SWP and SWPB (rules R72, R296, R297): their encodings; the word, or the byte that the byte order selects, into Rd,
Rm or its bits 7:0 in its place, every other byte as it was; SWPB needs no alignment. -/
def Obligations.SwpAndSwpbExchange : Prop :=
  ((∀ c rn rd rm, decodeWord (c.toBits ++ 0x10#8 ++ rn ++ rd ++ 0x09#8 ++ rm) = .ok (.swp c rn rd rm))
  ∧ ∀ (c : Cond) (rn rd rm : Reg) (s : State) (a : Access), conditionPassed c s = true →
    (Instr.swp c rn rd rm).predictable = true → (s.reg rn).toNat % 4 = 0 → s.NoDataError → s.MemoryCanonical →
    dataTranslate true (s.reg rn) (s.reg rn) s = .ok a →
    ∃ t, exec (.swp c rn rd rm) s = .next t ∧ t.reg rd = Memory.readWord s.mem a.pa.toNat
      ∧ Memory.readWord t.mem a.pa.toNat = s.reg rm ∧ t.cpsr = s.cpsr ∧ Advanced s t
      ∧ AccessFrame [rd] a.pa.toNat 4 a.state s t ∧ t.subWord = s.subWord)
  ∧ ((∀ c rn rd rm, decodeWord (c.toBits ++ 0x14#8 ++ rn ++ rd ++ 0x09#8 ++ rm) = .ok (.swpb c rn rd rm))
  ∧ ∀ (c : Cond) (rn rd rm : Reg) (s : State) (a : Access) (k : Nat), conditionPassed c s = true →
    (Instr.swpb c rn rd rm).predictable = true → s.NoDataError → s.MemoryCanonical →
    dataTranslate true (s.reg rn) (s.reg rn) s = .ok a →
    k = (if s.bigEndian = true then 3 - a.pa.toNat % 4 else a.pa.toNat % 4) →
    ∃ t, exec (.swpb c rn rd rm) s = .next t
      ∧ t.reg rd = ((Memory.readWord s.mem (a.pa.toNat / 4 * 4)).extractLsb' (8 * k) 8).setWidth 32
      ∧ Memory.read t.mem (a.pa.toNat / 4 * 4 + k) = (s.reg rm).extractLsb' 0 8 ∧ t.cpsr = s.cpsr ∧ Advanced s t
      ∧ AccessFrame [rd] (a.pa.toNat / 4 * 4 + k) 1 a.state s t ∧ t.subWord = true)

/-- PLD (rules R195 to R200): for every address it completes, and writes no register, no flag and no memory; only the
data TLB may have been filled, and only if the environment lets it (log 42). -/
def Obligations.PreloadCompletes : Prop :=
  ∀ (i : Instr) (u : Bool) (rn : Reg) (s : State),
    ((∃ off, i = .pldImm u rn off) ∨ ∃ n sh rm, i = .pldReg u rn n sh rm ∧ rm ≠ Reg.pc) →
    ∃ t, exec i s = .next t ∧ Advanced s t ∧ t.cpsr = s.cpsr ∧ RegistersKeptBut [] s t ∧ t.acc0 = s.acc0
      ∧ SystemKept s t ∧ MemoryKept s t ∧ t.owed = s.owed ∧ t.stored = s.stored ∧ t.dirty = s.dirty
      ∧ t.subWord = s.subWord
      ∧ (s.now.pldFills = false → t.dtlb = s.dtlb)

/-- No instruction but STR, STRD, SWP and SWPB changes a byte of memory, and no instruction but the MIA family and MAR
the accumulator (rules R30, R158, R200). -/
def Obligations.MemoryAndAccumulatorWriters : Prop :=
  (∀ (i : Instr) (s t : State), i.storesToMemory = false → exec i s = .next t → MemoryKept s t)
  ∧ (∀ (i : Instr) (s t : State), i.writesAccumulator = false → exec i s = .next t → t.acc0 = s.acc0)

/-! ## Aborts of data accesses -/

/-- With alignment checking on every misaligned load, store and swap takes the alignment abort, MMU on or off; LDRD
and STRD at address bits 2:0 = `0b100` take it whatever the A bit says. The status is `0b000x1`, the FAR the address,
and nothing else has changed, the base register included (rules R75, R77, R193, R345). That LDRD and STRD take it with
the A bit clear too is a choice, the reading of rule R77 that decision D4 makes (log 17). -/
def Obligations.AlignmentAborts : Prop :=
  ∀ (i : Instr) (c : Cond) (s : State) (d : DataAccess) (w : Width), dataAccessOf s i = some d → d.width = some w →
    i.condition = some c → conditionPassed c s = true → i.predictable = true →
    ((s.alignmentChecked = true ∧ d.address.toNat % w.bytes ≠ 0) ∨ (w = .double ∧ d.address.toNat % 8 = 4)) →
    ∃ t, ∃ x : Bool, exec i s = .next t ∧ DataAborted (if x then 0b00011 else 0b00001) none d.address s t

/-- A data MMU fault of an aligned load, store or swap is a precise data abort: status, domain where it is valid, FAR
the address, `R14_abt = A + 8`, and nothing else has changed (rules R344, R345, R348); and the status and the domain of
each of the eight faults, as Table 3-14 has them (rule R347). -/
def Obligations.DataMmuFaultsAreDataAborts : Prop :=
  (∀ (i : Instr) (c : Cond) (s : State) (d : DataAccess) (f : MmuFault), dataAccessOf s i = some d →
    i.condition = some c → conditionPassed c s = true → i.predictable = true →
    (∀ w, d.width = some w → d.address.toNat % w.bytes = 0) → translate .data d.write d.address s = .fault f →
    ∃ t, exec i s = .next t ∧ DataAborted f.status f.domain d.address s t)
  ∧ (MmuFault.walkFirst.status = 0b01100 ∧ MmuFault.walkFirst.domain = none)
  ∧ (MmuFault.translationSection.status = 0b00101 ∧ MmuFault.translationSection.domain = none)
  ∧ ∀ d : BitVec 4,
    ((MmuFault.walkSecond d).status = 0b01110 ∧ (MmuFault.walkSecond d).domain = some d)
    ∧ ((MmuFault.translationPage d).status = 0b00111 ∧ (MmuFault.translationPage d).domain = some d)
    ∧ ((MmuFault.domainSection d).status = 0b01001 ∧ (MmuFault.domainSection d).domain = some d)
    ∧ ((MmuFault.domainPage d).status = 0b01011 ∧ (MmuFault.domainPage d).domain = some d)
    ∧ ((MmuFault.permissionSection d).status = 0b01101 ∧ (MmuFault.permissionSection d).domain = some d)
    ∧ ((MmuFault.permissionPage d).status = 0b01111 ∧ (MmuFault.permissionPage d).domain = some d)

/-- With alignment checking off a misaligned load, store or SWP has no meaning and is refused by name, whatever its
translation would be (rule R78 and decision D5; log 16); LDRD and STRD at address bits 2:0 = `0b100` are not among them, for
they abort (rule R77). One whose last byte would lie above `0xFFFFFFFF` stops by another name (decision D7; log 18). -/
def Obligations.MisalignedAccessRefused : Prop :=
  ∀ (i : Instr) (c : Cond) (s : State) (d : DataAccess) (w : Width), dataAccessOf s i = some d → d.width = some w →
    i.condition = some c → conditionPassed c s = true → i.predictable = true → s.alignmentChecked = false →
    d.address.toNat % w.bytes ≠ 0 → ¬ (w = .double ∧ d.address.toNat % 8 = 4) →
    (4294967296 < d.address.toNat + w.bytes → exec i s = .fault .accessWraps)
    ∧ (d.address.toNat + w.bytes ≤ 4294967296 → exec i s = .refused .misalignedAccess)

/-- An aligned load, store or swap on which the environment reports an external error, and a load or swap from a
cached region on which the data cache reports a parity error, completes, its base written back, with bad data in the
registers it loads and in the bytes it stores alone, and the core owes one imprecise abort for it, the external one if
there are both; a store owes none for parity (rules R58, R352, R353, R360). With an external error on a
stall-until-complete region it writes no memory, as with a precise abort (rules R345, R402). After an external error on a
stall-until-complete region at most three further instructions begin before the report; no instruction begins while an
owed abort has none left (rule R354). The model's choices: what the bad data is, and that each instruction that begins
uses up one of the three (log 21); that what rule R296 says of a data abort on a swap, Rd and memory unchanged, is said
of a precise one (log 21); where a parity error can strike (log 22). -/
def Obligations.ImpreciseAbortsOwed : Prop :=
  (∀ (i : Instr) (c : Cond) (s : State) (d : DataAccess) (a : Access) (bad : Bool) (owes : List OwedAbort),
    dataAccessOf s i = some d → i.condition = some c → conditionPassed c s = true → i.predictable = true →
    (∀ w, d.width = some w → d.address.toNat % w.bytes = 0) →
    dataTranslate d.write d.address d.address s = .ok a →
    (Reg.pc ∈ d.loads → (Config.badLoad s.tick 0).toNat % 4 ≠ 2) →
    ((s.now.dataError = true ∧ bad = true
        ∧ owes = [⟨.external, if a.policy = .stallUntilComplete then some 3 else none⟩])
      ∨ (s.now.dataError = false ∧ s.now.dataParity = true ∧ a.policy.isCached = true ∧ s.dataCacheOn = true
        ∧ ((d.loads ≠ [] ∧ bad = true ∧ owes = [⟨.parity, none⟩]) ∨ (d.loads = [] ∧ bad = false ∧ owes = [])))) →
    ∃ t, exec i s = .next t ∧ t.owed = s.owed ++ owes
      ∧ (∀ rn v, d.base = some (rn, v) → t.reg rn = v)
      ∧ (bad = true → ∀ k r, d.loads[k]? = some r → r ≠ Reg.pc → t.reg r = Config.badLoad s.tick k)
      ∧ (Reg.pc ∉ d.loads → Advanced s t ∧ t.cpsr = s.cpsr)
      ∧ (Reg.pc ∈ d.loads → t.pc.toNat = (Config.badLoad s.tick 0).toNat / 2 * 2 ∧ t.pastTop = false
        ∧ t.thumb = (Config.badLoad s.tick 0).getLsbD 0 ∧ ∀ k, k ≠ 5 → t.cpsr.getLsbD k = s.cpsr.getLsbD k)
      ∧ OwingFrame d.writes (d.storedAt s a.pa) d.storedBytes a.state s t
      ∧ (s.now.dataError = true → a.policy = .stallUntilComplete →
        MemoryKept s t ∧ t.stored = s.stored ∧ t.dirty = s.dirty))
  ∧ (∀ (s u : State) (i : Instr), Runs s i u →
    (∀ o ∈ s.owed, o.deadline ≠ some 0)
    ∧ u.owed = s.owed.map (fun o => { o with deadline := o.deadline.map (· - 1) }))
  ∧ ∀ (s : State) (p : Policy) (load : Bool),
    (s.now.dataError = true → s.abortOwed p load = [⟨.external, if p = .stallUntilComplete then some 3 else none⟩])
    ∧ (s.now.dataError = false → s.now.dataParity = true → s.dataCacheOn = true → load = true →
      p.isCached = true → s.abortOwed p load = [⟨.parity, none⟩])
    ∧ (s.now.dataError = false → (s.now.dataParity = false ∨ s.dataCacheOn = false ∨ load = false
      ∨ p.isCached = false) → s.abortOwed p load = [])

/-! ## Exceptions -/

/-- Taking an exception (rules R330, R331, R334): the mode and the vector's offset of each, and what entry saves and
changes. The two vector bases, selected by the V bit, are the model's choice of what decision D6 leaves open (log 28). -/
def Obligations.ExceptionEntrySavesState : Prop :=
  (Exception.mode .undefined = .und ∧ Exception.mode .swi = .svc ∧ Exception.mode .prefetchAbort = .abt
    ∧ Exception.mode .dataAbort = .abt ∧ Exception.mode .irq = .irq ∧ Exception.mode .fiq = .fiq)
  ∧ (Exception.offset .undefined = 0x04 ∧ Exception.offset .swi = 0x08 ∧ Exception.offset .prefetchAbort = 0x0C
    ∧ Exception.offset .dataAbort = 0x10 ∧ Exception.offset .irq = 0x18 ∧ Exception.offset .fiq = 0x1C)
  ∧ (∀ s : State, s.vectorBase = if s.eff.control.getLsbD 13 = true then 0xFFFF0000 else 0)
  ∧ ∀ (s : State) (k : Exception) (link : Word),
    Entered k link s (s.takeException k link) ∧ FaultRegistersKept s (s.takeException k link)

/-- What is taken at an instruction boundary, in the order of the priorities: an imprecise data abort, with the status of
its cause, else FIQ if it is asserted and F = 0, else IRQ if it is asserted and I = 0 (rules R322, R334, R352, R353,
R358). An abort is reported exactly where one is owed that no further instruction may precede (rule R354) or the
environment delivers one of those owed; an external one goes before a parity one (rules R347, R360). The model's choices
(log 21): one that no further instruction may precede goes first, and of those that stand alike the one owed longest. -/
def Obligations.BoundaryExceptionsByPriority : Prop :=
  ∀ s t : State, s.pastTop = false → landPending s.now.land s = some t → psrMode t.cpsr ≠ none →
    (∀ o rest, t.reported = some (o, rest) →
      ∃ u, step s = .next u.endStep ∧ Entered .dataAbort (t.pc + 4) { t with owed := rest } u
        ∧ (o.cause = .external → fsrStatus u.fsr = 0b10110) ∧ (o.cause = .parity → fsrStatus u.fsr = 0b11000))
    ∧ (t.reported = none ↔
      (∀ o ∈ t.owed, o.deadline ≠ some 0) ∧ (t.now.deliver = true → t.owed = []))
    ∧ (∀ o rest, t.reported = some (o, rest) → ∃ before after, t.owed = before ++ o :: after ∧ rest = before ++ after
      ∧ ((o.deadline = some 0 ∧ ∀ p ∈ before, p.deadline ≠ some 0)
        ∨ ((∀ p ∈ t.owed, p.deadline ≠ some 0) ∧ t.now.deliver = true
          ∧ ((o.cause = .external ∧ ∀ p ∈ before, p.cause = .parity)
            ∨ ((∀ p ∈ t.owed, p.cause = .parity) ∧ before = [])))))
    ∧ (t.reported = none → t.now.fiq = true → t.fiqDisabled = false →
      ∃ u, step s = .next u.endStep ∧ Entered .fiq (t.pc + 4) t u ∧ FaultRegistersKept t u)
    ∧ (t.reported = none → (t.now.fiq = false ∨ t.fiqDisabled = true) → t.now.irq = true → t.irqDisabled = false →
      ∃ u, step s = .next u.endStep ∧ Entered .irq (t.pc + 4) t u ∧ FaultRegistersKept t u)
    ∧ (t.reported = none → (t.now.fiq = false ∨ t.fiqDisabled = true) → (t.now.irq = false ∨ t.irqDisabled = true) →
      t.boundaryException = none)

/-- A fetch that fails takes the prefetch abort (rules R340 to R342): `R14_abt = A + 4`, the status of the cause of
highest priority in the FSR. A translation that the walk found stays in the instruction TLB (rules R96, R127). The
model's choices: the FAR is as it was (log 20); an external abort on the table walk is reported by one of two codes
(log 34). -/
def Obligations.FailedFetchTakesPrefetchAbort : Prop :=
  (∀ (s t v : State) (status : BitVec 5), s.pastTop = false → landPending s.now.land s = some t →
    psrMode t.cpsr ≠ none → t.boundaryException = none → t.thumb = false → t.ageOwed.fetch = .abort v status →
    ∃ u, step s = .next u.endStep ∧ Entered .prefetchAbort (t.pc + 4) v u ∧ fsrStatus u.fsr = status
      ∧ u.far = s.far ∧ v = { t.ageOwed with itlb := v.itlb })
  ∧ ∀ s : State,
    (∀ f, translate .instruction false s.pc s = .fault f → f ≠ .walkFirst → (∀ d, f ≠ .walkSecond d) →
      s.fetch = .abort s 0b10000)
    ∧ (∀ f, translate .instruction false s.pc s = .fault f → f = .walkFirst ∨ (∃ d, f = .walkSecond d) →
      s.fetch = .abort s 0b10000 ∨ s.fetch = .abort s 0b10110)
    ∧ (∀ t pa a, translate .instruction false s.pc s = .ok t pa a → s.now.fetchError = true →
      s.fetch = .abort t 0b10110)
    ∧ (∀ t pa a, translate .instruction false s.pc s = .ok t pa a → s.now.fetchError = false →
      s.now.fetchParity = true → s.instructionCacheOn = true → a.c = true → s.fetch = .abort t 0b11000)

/-! ## Coprocessor 15 -/

/-- MRC reads each register of rule R31 as it is in program order, with no effect on it (rules R241, R243 to R246). The
model's choices: the reserved bits of the Control Register read as last written (log 23); registers that rule R31 does
not list are read, registers 0 and 3 (log 13) and the data cache lock register (log 14). With Rd = R15 the
top four bits go to the flags (the model's choice, log 32); a triple that names no register has no meaning (decision
D11, log 13). -/
def Obligations.MrcReadsRegisters : Prop :=
  ∀ (c : Cond) (crn crm : BitVec 4) (op2 : BitVec 3) (rd : Reg) (s : State), conditionPassed c s = true →
    s.privileged = true → rd ≠ Reg.pc →
    (∀ v, (crn, crm, op2, v) ∈ [((1 : BitVec 4), (0 : BitVec 4), (0 : BitVec 3), s.cp15.control),
        (1, 0, 1, s.cp15.auxControl), (2, 0, 0, s.cp15.ttb), (3, 0, 0, s.cp15.dacr), (5, 0, 0, s.fsr), (6, 0, 0, s.far),
        (9, 2, 0, s.dcacheLock), (13, 0, 0, s.cp15.pid), (15, 1, 0, s.cp15.cpar), (0, 0, 0, Config.mainId),
        (0, 0, 1, Config.cacheType)] →
      ∃ t, exec (.mrc c crn rd op2 crm) s = .next t ∧ t.reg rd = v ∧ t.cpsr = s.cpsr ∧ Advanced s t
        ∧ RegisterFrame [rd] s t)
    ∧ (∀ v, s.readCp15 crn crm op2 = some v →
      ∃ t, exec (.mrc c crn Reg.pc op2 crm) s = .next t ∧ t.n = v.getLsbD 31 ∧ t.z = v.getLsbD 30
        ∧ t.c = v.getLsbD 29 ∧ t.v = v.getLsbD 28 ∧ CpsrKeptBelow 28 s t ∧ Advanced s t ∧ RegisterFrame [] s t)
    ∧ ((crn, crm, op2) ∉ [((0 : BitVec 4), (0 : BitVec 4), (0 : BitVec 3)), (0, 0, 1), (1, 0, 0), (1, 0, 1), (2, 0, 0),
        (3, 0, 0), (5, 0, 0), (6, 0, 0), (9, 2, 0), (13, 0, 0), (15, 1, 0)] →
      exec (.mrc c crn rd op2 crm) s = .refused .cp15Unlisted)

/-- MCR to a storage register writes it in program order; to a register that fetches, data accesses or coprocessor
checks depend on, the write is pending on those. The Control Register keeps its fixed bits; a write that would turn
the data cache on with the MMU off, and one that changes the B bit after a byte or halfword access, have no meaning
(rules R32, R88, R242, R256, R409). The model's choices: every value is written, reserved bits included (logs 23 and
24), a process ID other than 0 too (log 12); register 3 and the data cache lock register are written (logs 13 and 14); a
write of the FSR, the FAR or the lock register is complete at once (log 9); a triple that names neither a register nor
a function has no meaning (decision D11, log 13). -/
def Obligations.McrWritesRegisters : Prop :=
  ∀ (c : Cond) (rd : Reg) (s : State) (v : Word), conditionPassed c s = true → s.privileged = true → rd ≠ Reg.pc →
    v = s.reg rd →
    (∀ crn crm op2 new e,
      (crn, crm, op2, new, e) ∈ [((1 : BitVec 4), (0 : BitVec 4), (1 : BitVec 3), { s.cp15 with auxControl := v },
          Cp15Effect.setAuxControl v),
        (2, 0, 0, { s.cp15 with ttb := v }, .setTtb v), (3, 0, 0, { s.cp15 with dacr := v }, .setDacr v),
        (13, 0, 0, { s.cp15 with pid := v }, .setPid v), (15, 1, 0, { s.cp15 with cpar := v }, .setCpar v)] →
      ∃ t, exec (.mcr c crn rd op2 crm) s = .next t ∧ t.cp15 = new ∧ t.pending = s.pending ++ [e]
        ∧ FaultRegistersKept s t ∧ t.dcacheLock = s.dcacheLock ∧ Advanced s t ∧ ControlFrame s t)
    ∧ (¬ (v.getLsbD 0 = false ∧ v.getLsbD 2 = true) →
      (s.subWord = true → v.getLsbD 7 = s.cp15.control.getLsbD 7) →
      ∃ t new, exec (.mcr c 1 rd 0 0) s = .next t ∧ t.cp15 = { s.cp15 with control := new }
        ∧ (∀ k, k ∉ [3, 4, 5, 6] → new.getLsbD k = v.getLsbD k)
        ∧ (∀ k ∈ [3, 4, 5, 6], new.getLsbD k = true)
        ∧ t.pending = s.pending ++ [.setControl new] ∧ FaultRegistersKept s t ∧ t.dcacheLock = s.dcacheLock
        ∧ Advanced s t ∧ ControlFrame s t)
    ∧ (v.getLsbD 0 = false → v.getLsbD 2 = true → exec (.mcr c 1 rd 0 0) s = .refused .illegalCacheEnable)
    ∧ (¬ (v.getLsbD 0 = false ∧ v.getLsbD 2 = true) → s.subWord = true →
      v.getLsbD 7 ≠ s.cp15.control.getLsbD 7 → exec (.mcr c 1 rd 0 0) s = .refused .byteOrderChange)
    ∧ (∃ t, exec (.mcr c 5 rd 0 0) s = .next t ∧ t.fsr = v ∧ t.far = s.far ∧ t.dcacheLock = s.dcacheLock
        ∧ t.cp15 = s.cp15 ∧ t.pending = s.pending ∧ Advanced s t ∧ ControlFrame s t)
    ∧ (∃ t, exec (.mcr c 6 rd 0 0) s = .next t ∧ t.far = v ∧ t.fsr = s.fsr ∧ t.dcacheLock = s.dcacheLock
        ∧ t.cp15 = s.cp15 ∧ t.pending = s.pending ∧ Advanced s t ∧ ControlFrame s t)
    ∧ (∃ t, exec (.mcr c 9 rd 0 2) s = .next t ∧ t.dcacheLock = v ∧ FaultRegistersKept s t ∧ t.cp15 = s.cp15
        ∧ t.pending = s.pending ∧ Advanced s t ∧ ControlFrame s t)
    ∧ ∀ crn crm op2, (crn, crm, op2) ∉ [((1 : BitVec 4), (0 : BitVec 4), (0 : BitVec 3)), (1, 0, 1), (2, 0, 0),
        (3, 0, 0), (5, 0, 0), (6, 0, 0), (9, 2, 0), (13, 0, 0), (15, 1, 0), (8, 7, 0), (8, 5, 0), (8, 5, 1), (8, 6, 0),
        (8, 6, 1), (10, 4, 0), (10, 4, 1), (10, 8, 0), (10, 8, 1), (7, 7, 0), (7, 6, 0), (7, 6, 1), (7, 5, 0),
        (7, 5, 1), (7, 5, 6), (7, 10, 1), (7, 10, 4), (7, 2, 5), (9, 1, 0), (9, 1, 1), (9, 2, 1)] →
      exec (.mcr c crn rd op2 crm) s = .refused .cp15Unlisted

/-- MCR to registers 8 and 10: each TLB function is issued with its argument and is pending; no register and no TLB
has changed yet (rules R42, R247, R248, R252, R256). That the argument is remapped by the process ID is the model's
choice (log 12), and the rows the source does not give are log 13. -/
def Obligations.McrTlbFunctionsPend : Prop :=
  ∀ (c : Cond) (crn crm : BitVec 4) (op2 : BitVec 3) (rd : Reg) (s : State) (mva : Word) (e : Cp15Effect),
    conditionPassed c s = true → s.privileged = true → rd ≠ Reg.pc → mva = remap s.cp15.pid (s.reg rd) →
    (crn, crm, op2, e) ∈ [((8 : BitVec 4), (7 : BitVec 4), (0 : BitVec 3), Cp15Effect.invalidateBoth),
      (8, 5, 0, .invalidate .instruction), (8, 5, 1, .invalidateEntry .instruction mva),
      (8, 6, 0, .invalidate .data), (8, 6, 1, .invalidateEntry .data mva), (10, 4, 1, .unlock .instruction),
      (10, 8, 1, .unlock .data)] →
    ∃ t, exec (.mcr c crn rd op2 crm) s = .next t ∧ t.pending = s.pending ++ [e] ∧ t.cp15 = s.cp15
      ∧ FaultRegistersKept s t ∧ t.dcacheLock = s.dcacheLock ∧ Advanced s t ∧ ControlFrame s t

/-- Translate and lock (rules R124, R249 to R251, R346): with the MMU on a walk that finds a translation the access
checks pass issues its lock; a translation or permission fault, or an external abort on the walk, is the lock abort,
precise, with no TLB changed. With the MMU off no MMU fault arises (rules R86, R348), and the function, which requires
the MMU on (note N10), is refused. The model's choices: the walk is made in the MCR's own step, on the registers in
program order, the M bit among them, and a domain fault is a lock abort (log 35); the address is remapped (log 12). -/
def Obligations.TranslateAndLockIssuesOrAborts : Prop :=
  ∀ (c : Cond) (t : Side) (crm : BitVec 4) (rd : Reg) (s : State) (mva : Word),
    (t = .instruction ∧ crm = 4) ∨ (t = .data ∧ crm = 8) → conditionPassed c s = true → s.privileged = true →
    rd ≠ Reg.pc → mva = remap s.cp15.pid (s.reg rd) →
    (∀ e, s.cp15.control.getLsbD 0 = true →
      walk s.mem s.now.dataWalkAbort s.cp15.auxControl s.cp15.ttb mva = .ok e →
      checkAccess s.cp15.dacr s.cp15.control e mva true false = .pass →
      ∃ u, exec (.mcr c 10 rd 0 crm) s = .next u ∧ u.pending = s.pending ++ [.lock t mva e] ∧ u.cp15 = s.cp15
        ∧ FaultRegistersKept s u ∧ u.dcacheLock = s.dcacheLock ∧ Advanced s u ∧ ControlFrame s u)
    ∧ (s.cp15.control.getLsbD 0 = true →
      (∃ f, walk s.mem s.now.dataWalkAbort s.cp15.auxControl s.cp15.ttb mva = .error f)
        ∨ (∃ e f, walk s.mem s.now.dataWalkAbort s.cp15.auxControl s.cp15.ttb mva = .ok e
          ∧ checkAccess s.cp15.dacr s.cp15.control e mva true false = .fault f) →
      ∃ u, exec (.mcr c 10 rd 0 crm) s = .next u ∧ Entered .dataAbort (s.pc + 8) s u
        ∧ fsrStatus u.fsr = 0b10100)
    ∧ (∀ e r, s.cp15.control.getLsbD 0 = true →
      walk s.mem s.now.dataWalkAbort s.cp15.auxControl s.cp15.ttb mva = .ok e →
      checkAccess s.cp15.dacr s.cp15.control e mva true false = .refused r →
      exec (.mcr c 10 rd 0 crm) s = .refused r)
    ∧ (s.cp15.control.getLsbD 0 = false → exec (.mcr c 10 rd 0 crm) s = .refused .lockMmuOff)

/-- The cache functions that lose no data change nothing; those that could discard a line not yet written to memory
change nothing while no such line can exist, and are refused else; line allocation is refused. The lock of an
instruction cache line is made in program order, after every function issued before it; a line whose address does not
translate, or that suffers an external error, is the lock abort (rules R114, R131, R253, R346; the caches are not
held, and a line's translation is placed in the instruction TLB: the model's choice, logs 14 and 26). -/
def Obligations.McrCacheFunctionsAct : Prop :=
  ∀ (c : Cond) (crn crm : BitVec 4) (op2 : BitVec 3) (rd : Reg) (s : State), conditionPassed c s = true →
    s.privileged = true → rd ≠ Reg.pc →
    ((crn, crm, op2) ∈ [((7 : BitVec 4), (5 : BitVec 4), (0 : BitVec 3)), (7, 5, 1), (7, 5, 6), (7, 10, 1), (7, 10, 4),
        (9, 1, 1), (9, 2, 1)]
      ∨ (s.dirty = false ∧ (crn, crm, op2) ∈ [((7 : BitVec 4), (7 : BitVec 4), (0 : BitVec 3)), (7, 6, 0), (7, 6, 1)]) →
      ∃ t, exec (.mcr c crn rd op2 crm) s = .next t ∧ t.cp15 = s.cp15 ∧ t.pending = s.pending
        ∧ FaultRegistersKept s t ∧ t.dcacheLock = s.dcacheLock ∧ Advanced s t ∧ ControlFrame s t)
    ∧ (s.dirty = true → (crn, crm, op2) ∈ [((7 : BitVec 4), (7 : BitVec 4), (0 : BitVec 3)), (7, 6, 0), (7, 6, 1)] →
      exec (.mcr c crn rd op2 crm) s = .refused .discardsDirtyData)
    ∧ exec (.mcr c 7 rd 5 2) s = .refused .cacheAllocate
    ∧ ∀ (u : State) (mva : Word) (checked : TlbEntry → Check), landPending s.pending.length s = some u →
      mva = remap s.cp15.pid (s.reg rd) →
      checked = (fun e => checkAccess s.cp15.dacr s.cp15.control e mva true false) →
      (s.now.dataError = false →
        s.cp15.control.getLsbD 0 = false ∨ (∃ e, u.itlb.find mva = some e ∧ checked e = .pass) →
        ∃ t, exec (.mcr c 9 rd 0 1) s = .next t ∧ t.cp15 = s.cp15 ∧ t.pending = s.pending ∧ FaultRegistersKept s t
          ∧ t.dcacheLock = s.dcacheLock ∧ Advanced s t ∧ ControlFrame s t)
      ∧ (∀ e, s.now.dataError = false → s.cp15.control.getLsbD 0 = true → u.itlb.find mva = none →
        walk s.mem s.now.dataWalkAbort s.cp15.auxControl s.cp15.ttb mva = .ok e → checked e = .pass →
        ∃ t, exec (.mcr c 9 rd 0 1) s = .next t ∧ t.cp15 = s.cp15
          ∧ t.pending = s.pending ++ [.fill .instruction mva e] ∧ FaultRegistersKept s t
          ∧ t.dcacheLock = s.dcacheLock ∧ Advanced s t ∧ ControlFrame s t)
      ∧ ((s.now.dataError = true ∧ s.cp15.control.getLsbD 0 = false)
          ∨ (s.cp15.control.getLsbD 0 = true
            ∧ ((∃ e, u.itlb.find mva = some e
                ∧ ((∃ f, checked e = .fault f) ∨ (s.now.dataError = true ∧ checked e = .pass)))
              ∨ (u.itlb.find mva = none
                ∧ ((∃ f, walk s.mem s.now.dataWalkAbort s.cp15.auxControl s.cp15.ttb mva = .error f)
                  ∨ ∃ e, walk s.mem s.now.dataWalkAbort s.cp15.auxControl s.cp15.ttb mva = .ok e
                    ∧ ((∃ f, checked e = .fault f) ∨ (s.now.dataError = true ∧ checked e = .pass)))))) →
        ∃ t, exec (.mcr c 9 rd 0 1) s = .next t ∧ Entered .dataAbort (s.pc + 8) s t ∧ fsrStatus t.fsr = 0b10100)

/-- Every access to coprocessor 15 in User mode takes the Undefined Instruction exception (rules R46, R240). -/
def Obligations.Cp15TrapsInUserMode : Prop :=
  ∀ (i : Instr) (c : Cond) (crn crm : BitVec 4) (op2 : BitVec 3) (rd : Reg) (s : State),
    i = .mcr c crn rd op2 crm ∨ i = .mrc c crn rd op2 crm → conditionPassed c s = true → s.mode = .usr →
    ∃ t, exec i s = .next t ∧ Entered .undefined (s.pc + 4) s t ∧ FaultRegistersKept s t

/-- CP15 effects land in program order, oldest first, and only as many as there are (rules R114, R254, R256); a TLB
function that lands does its work on its TLB and leaves the other one alone (rules R121, R122, R127, R128). The
model's choices: the functions the source does not give, unlock and invalidate both among them (log 13); the
translation of a locked instruction cache line, which fills the TLB unless it is resident (log 14); that a lock is
judged when it lands, and has no meaning if it finds its translation resident (rule R123 calls that UNPREDICTABLE; log
35). -/
def Obligations.LandsInProgramOrder : Prop :=
  (∀ (n : Nat) (s t : State), landPending n s = some t →
    t.pending = s.pending.drop n ∧ t.eff = (s.pending.take n).foldl Cp15Effect.registers s.eff
    ∧ t.cp15 = s.cp15 ∧ t.gpr = s.gpr ∧ t.pc = s.pc ∧ t.cpsr = s.cpsr ∧ (∀ m, t.spsr m = s.spsr m)
    ∧ t.acc0 = s.acc0 ∧ t.mem = s.mem ∧ t.fsr = s.fsr ∧ t.far = s.far ∧ t.owed = s.owed)
  ∧ ∀ (s : State) (f : Cp15Effect) (rest : List Cp15Effect) (side other : Side) (mva : Word) (e : TlbEntry) (l : Tlb),
    s.pending = f :: rest → side ≠ other →
    ((f = .invalidate side ∧ l = (s.tlb side).invalidate)
      ∨ (f = .invalidateEntry side mva ∧ l = (s.tlb side).invalidateEntry mva)
      ∨ (f = .lock side mva e ∧ l = (s.tlb side).lock e ∧ (s.tlb side).find mva = none)
      ∨ (f = .fill side mva e ∧ l = (s.tlb side).fill e ∧ (s.tlb side).find mva = none)
      ∨ (f = .fill side mva e ∧ l = s.tlb side ∧ (s.tlb side).find mva ≠ none)
      ∨ (f = .unlock side ∧ l = (s.tlb side).unlock) →
      ∃ t, landPending 1 s = some t ∧ t.tlb side = l ∧ t.tlb other = s.tlb other)
    ∧ (f = .invalidateBoth →
      ∃ t, landPending 1 s = some t ∧ t.itlb = s.itlb.invalidate ∧ t.dtlb = s.dtlb.invalidate)
    ∧ (f = .lock side mva e → (s.tlb side).find mva ≠ none → landPending 1 s = none)

/-- CPWAIT (rules R255, R256): when its three instructions have run one after the other in a privileged mode, every
earlier CP15 write is in effect: nothing is pending, and the registers in effect are those MRC reads. -/
def Obligations.CpwaitCompletes : Prop :=
  ∀ s0 s1 s2 s3 u0 u1 u2 : State, s0.Cp15Agrees → u0.privileged = true →
    Runs s0 cpwaitMrc u0 → step s0 = .next s1 →
    Runs s1 cpwaitMov u1 → step s1 = .next s2 →
    Runs s2 cpwaitSub u2 → step s2 = .next s3 →
    s3.pending = [] ∧ s3.eff = s3.cp15 ∧ s3.pc = s2.pc + 4

/-! ## Translation and the TLBs -/

/-- How an access is translated, and what its attributes ask for. With the MMU off an address below 2^25 takes bits 31:25
of the process ID, and each address so remapped is its own physical address, of a fetch and of a data access, which
stalls until complete; nothing faults and no TLB changes (rules R43, R86, R348). With the MMU on the entry that the TLB
holds for the remapped address, else the one that the walk finds, supplies the physical address and the attributes once
its checks pass; a fault of the walk or of the check is the access's fault, and a check without meaning refuses it (rules
R96, R98). For a data access Tables 3-15 and 3-16 say what the attributes ask for; X = 1, C = 0, B = 0 is UNPREDICTABLE,
and so is the value `0b11` of the MD field, which governs X = 1, C = 1, B = 0 (rules R37, R102; row A10). The model's
choices: the remap, and that it does not wait for the MMU (log 12; while the process ID is 0 it changes no address), which
entry a TLB gives where several would translate the address, and that its checks run at every access (log 11). -/
def Obligations.AccessesAreTranslatedAndClassified : Prop :=
  (∀ (s : State) (side : Side) (write : Bool) (far va : Word), s.mmuOn = false →
    ∃ pa, translate side write va s = .ok s pa (attributesOff side)
      ∧ dataTranslate write far va s = .ok ⟨s, pa, false, .stallUntilComplete⟩
      ∧ (va.toNat < 33554432 → pa.toNat = va.toNat + s.eff.pid.toNat / 33554432 * 33554432)
      ∧ (33554432 ≤ va.toNat → pa = va))
  ∧ (∀ (s : State) (side : Side) (write : Bool) (va mva : Word), s.mmuOn = true → mva = remap s.eff.pid va →
    (∀ f, (s.tlb side).find mva = none →
      walk s.mem (s.walkAbort side) s.eff.auxControl s.eff.ttb mva = .error f → translate side write va s = .fault f)
    ∧ ∀ (e : TlbEntry) (u : State), ((s.tlb side).find mva = some e ∧ u = s)
        ∨ ((s.tlb side).find mva = none
          ∧ walk s.mem (s.walkAbort side) s.eff.auxControl s.eff.ttb mva = .ok e
          ∧ u = s.setTlb side ((s.tlb side).fill e)) →
      (checkAccess s.eff.dacr s.eff.control e mva s.privileged write = .pass →
        translate side write va s = .ok u (e.physical mva) e.attributes)
      ∧ (∀ f, checkAccess s.eff.dacr s.eff.control e mva s.privileged write = .fault f →
        translate side write va s = .fault f)
      ∧ ∀ r, checkAccess s.eff.dacr s.eff.control e mva s.privileged write = .refused r →
        translate side write va s = .refused r)
  ∧ (∀ (l : Tlb) (mva : Word), (l.find mva = none ↔ ∀ k : Fin 32, l.entries[k].hits mva = false)
    ∧ ∀ e, l.find mva = some e → ∃ k : Fin 32, l.entries[k] = e ∧ e.hits mva = true
      ∧ ∀ j : Fin 32, j < k → l.entries[j].hits mva = false)
  ∧ (∀ (s : State) (write : Bool) (far va : Word),
    (∀ f, translate .data write va s = .fault f → dataTranslate write far va s = .abort (.mmu f) far)
    ∧ (∀ r, translate .data write va s = .refused r → dataTranslate write far va s = .refused r)
    ∧ ∀ t pa a, translate .data write va s = .ok t pa a →
      (∀ p, dataPolicy a s.eff.auxControl = some p → dataTranslate write far va s = .ok ⟨t, pa, a.p, p⟩)
      ∧ (dataPolicy a s.eff.auxControl = none →
        dataTranslate write far va s = .refused .unpredictableAttributes))
  ∧ (∀ (p : Bool) (aux : Word), dataPolicy ⟨false, false, false, p⟩ aux = some .stallUntilComplete
    ∧ dataPolicy ⟨false, false, true, p⟩ aux = some (.buffered !(aux.getLsbD 0))
    ∧ dataPolicy ⟨false, true, false, p⟩ aux = some (.cached false .writeThrough .readAllocate)
    ∧ dataPolicy ⟨false, true, true, p⟩ aux = some (.cached false .writeBack .readAllocate)
    ∧ dataPolicy ⟨true, false, false, p⟩ aux = none
    ∧ dataPolicy ⟨true, false, true, p⟩ aux = some (.buffered false)
    ∧ (aux.toNat / 16 % 4 = 0 → dataPolicy ⟨true, true, false, p⟩ aux = some (.cached true .writeBack .readAllocate))
    ∧ (aux.toNat / 16 % 4 = 1 →
      dataPolicy ⟨true, true, false, p⟩ aux = some (.cached true .writeBack .readWriteAllocate))
    ∧ (aux.toNat / 16 % 4 = 2 →
      dataPolicy ⟨true, true, false, p⟩ aux = some (.cached true .writeThrough .readAllocate))
    ∧ (aux.toNat / 16 % 4 = 3 → dataPolicy ⟨true, true, false, p⟩ aux = none)
    ∧ dataPolicy ⟨true, true, true, p⟩ aux = some (.cached false .writeBack .readWriteAllocate))
  ∧ ∀ (a : Attributes) (aux : Word) (p : Policy), dataPolicy a aux = some p →
    p.isCached = a.c ∧ (p.isWriteBack = true ↔ ∃ mini alloc, p = .cached mini .writeBack alloc)

/-- The two-level walk: for each address of the region that a descriptor maps, and for no other, the physical address,
the access permission, the domain and the attributes of the entry it gives; its faults and the external aborts of its
two reads; the process ID remap; and the checks of domain and access permission, with the S and R bits and the reserved
values that have no meaning, whose faults are the section's for an entry of a section and the page's for any other
(rules R43, R90 to R98, R347; R43 and R90 to R98 are marked by the spec as general knowledge; logs 10 and 12). -/
def Obligations.TranslationTablesGiveAddresses : Prop :=
  (∀ pid va : Word, remap pid va = if va.toNat < 33554432 then va ||| (pid &&& 0xFE000000) else va)
  ∧ (∀ (mem : List Host.Cell) (aux ttb mva d1 : Word),
    d1 = Memory.readWord mem (ttb.toNat / 16384 * 16384 + mva.toNat / 1048576 * 4) →
    walk mem (some .first) aux ttb mva = .error .walkFirst
    ∧ (d1.toNat % 2 = 1 → walk mem (some .second) aux ttb mva = .error (.walkSecond (d1.extractLsb' 5 4)))
    ∧ (d1.toNat % 2 = 0 → walk mem (some .second) aux ttb mva = walk mem none aux ttb mva)
    ∧ (d1.toNat % 4 = 0 → walk mem none aux ttb mva = .error .translationSection)
    ∧ (d1.toNat % 4 = 2 → ∃ e, walk mem none aux ttb mva = .ok e
      ∧ MapsRegion e mva .section1M 1048576 d1 (fun _ => d1.extractLsb' 10 2) (d1.extractLsb' 5 4)
        ⟨d1.getLsbD 12, d1.getLsbD 3, d1.getLsbD 2, d1.getLsbD 9⟩)
    ∧ (∀ d2 : Word, (d1.toNat % 4 = 1
          ∧ d2 = Memory.readWord mem (d1.toNat / 1024 * 1024 + mva.toNat / 4096 % 256 * 4))
        ∨ (d1.toNat % 4 = 3 ∧ d2 = Memory.readWord mem (d1.toNat / 4096 * 4096 + mva.toNat / 1024 % 1024 * 4)) →
      (d2.toNat % 4 = 0 → walk mem none aux ttb mva = .error (.translationPage (d1.extractLsb' 5 4)))
      ∧ (d2.toNat % 4 = 1 → ∃ e, walk mem none aux ttb mva = .ok e
        ∧ MapsRegion e mva .large64K 65536 d2 (fun m => d2.extractLsb' (4 + 2 * (m.toNat / 16384 % 4)) 2)
          (d1.extractLsb' 5 4) ⟨d2.getLsbD 12, d2.getLsbD 3, d2.getLsbD 2, d1.getLsbD 9⟩)
      ∧ (d2.toNat % 4 = 2 → ∃ e, walk mem none aux ttb mva = .ok e
        ∧ MapsRegion e mva .small4K 4096 d2 (fun m => d2.extractLsb' (4 + 2 * (m.toNat / 1024 % 4)) 2)
          (d1.extractLsb' 5 4) ⟨false, d2.getLsbD 3, d2.getLsbD 2, d1.getLsbD 9⟩)
      ∧ (d2.toNat % 4 = 3 → ∃ e, walk mem none aux ttb mva = .ok e
        ∧ ∀ (size : PageSize) (n : Nat), (d1.toNat % 4 = 1 ∧ size = .small4K ∧ n = 4096)
            ∨ (d1.toNat % 4 = 3 ∧ size = .tiny1K ∧ n = 1024) →
          MapsRegion e mva size n d2 (fun _ => d2.extractLsb' 4 2) (d1.extractLsb' 5 4)
            ⟨d2.getLsbD 6, d2.getLsbD 3, d2.getLsbD 2, d1.getLsbD 9⟩)))
  ∧ ∀ (dacr control : Word) (e : TlbEntry) (mva : Word) (privileged write : Bool) (outside denied : MmuFault),
    (e.size = .section1M ∧ outside = .domainSection e.domain ∧ denied = .permissionSection e.domain)
      ∨ (e.size ≠ .section1M ∧ outside = .domainPage e.domain ∧ denied = .permissionPage e.domain) →
    (dacr.toNat / 4 ^ e.domain.toNat % 4 = 3 → checkAccess dacr control e mva privileged write = .pass)
    ∧ (dacr.toNat / 4 ^ e.domain.toNat % 4 = 2 →
      checkAccess dacr control e mva privileged write = .refused .reservedDomain)
    ∧ (dacr.toNat / 4 ^ e.domain.toNat % 4 = 0 →
      checkAccess dacr control e mva privileged write = .fault outside)
    ∧ (dacr.toNat / 4 ^ e.domain.toNat % 4 = 1 →
      (e.ap mva = 3 → checkAccess dacr control e mva privileged write = .pass)
      ∧ (e.ap mva = 2 → privileged = true ∨ write = false → checkAccess dacr control e mva privileged write = .pass)
      ∧ (e.ap mva = 1 → privileged = true → checkAccess dacr control e mva privileged write = .pass)
      ∧ ((e.ap mva = 2 ∧ privileged = false ∧ write = true) ∨ (e.ap mva = 1 ∧ privileged = false) →
        checkAccess dacr control e mva privileged write = .fault denied)
      ∧ (e.ap mva = 0 →
        (control.getLsbD 8 = true → control.getLsbD 9 = true →
          checkAccess dacr control e mva privileged write = .refused .unpredictableAp)
        ∧ ((control.getLsbD 8 = true ∧ control.getLsbD 9 = false ∧ privileged = true ∧ write = false)
            ∨ (control.getLsbD 8 = false ∧ control.getLsbD 9 = true ∧ write = false) →
          checkAccess dacr control e mva privileged write = .pass)
        ∧ ((control.getLsbD 8 = false ∧ control.getLsbD 9 = false)
            ∨ (control.getLsbD 8 = true ∧ control.getLsbD 9 = false ∧ (privileged = false ∨ write = true))
            ∨ (control.getLsbD 8 = false ∧ control.getLsbD 9 = true ∧ write = true) →
          checkAccess dacr control e mva privileged write = .fault denied)))

/-- Rule R127: a walk that ends without a fault writes its translation, valid and not locked, where the round-robin
pointer points; the pointer moves on, and from 31 wraps to the lock pointer; after reset it is 31. A translation that
is found moves nothing. -/
def Obligations.RoundRobinFillsNextEntry : Prop :=
  State.reset.itlb.rrPtr = 31 ∧ State.reset.dtlb.rrPtr = 31
  ∧ (∀ (side : Side) (write : Bool) (va pa : Word) (s t : State) (a : Attributes), s.mmuOn = true →
    translate side write va s = .ok t pa a →
    (∀ e, (s.tlb side).find (remap s.eff.pid va) = some e → t = s)
    ∧ ((s.tlb side).find (remap s.eff.pid va) = none →
      ∃ e, walk s.mem (s.walkAbort side) s.eff.auxControl s.eff.ttb (remap s.eff.pid va) = .ok e
        ∧ (t.tlb side).entries[(s.tlb side).rrPtr] = { e with valid := true, locked := false }
        ∧ (∀ k : Fin 32, k ≠ (s.tlb side).rrPtr → (t.tlb side).entries[k] = (s.tlb side).entries[k])
        ∧ (t.tlb side).rrPtr.val =
          (if (s.tlb side).rrPtr.val = 31 then (s.tlb side).lockPtr.val else (s.tlb side).rrPtr.val + 1)
        ∧ (t.tlb side).lockPtr = (s.tlb side).lockPtr))
  ∧ ∀ (l : Tlb) (e : TlbEntry), l.lockPtr = 31 → l.rrPtr = 31 → (l.fill e).rrPtr = 31

/-- Rule R129: only entries 0 to 30 can be locked. With the lock pointer at 31 a lock operation writes its translation
into entry 31 unlocked and moves no pointer; so at most 31 entries are locked and entry 31 is always replaceable. With
the lock pointer below 31 it locks the entry there, moves on and sends the round-robin pointer to 31 (rule R128). -/
def Obligations.LockPointerLeavesEntry31Free : Prop :=
  ∀ (l : Tlb) (e : TlbEntry), l.Ordered →
    (l.lockPtr = 31 → (l.lock e).entries[(31 : Fin 32)] = { e with valid := true, locked := false }
      ∧ (l.lock e).lockPtr = 31 ∧ (l.lock e).rrPtr = 31
      ∧ ∀ k : Fin 32, k ≠ 31 → (l.lock e).entries[k] = l.entries[k])
    ∧ (l.lockPtr.val < 31 → (l.lock e).entries[l.lockPtr] = { e with valid := true, locked := true }
      ∧ (l.lock e).lockPtr.val = l.lockPtr.val + 1 ∧ (l.lock e).rrPtr = 31
      ∧ ∀ k : Fin 32, k ≠ l.lockPtr → (l.lock e).entries[k] = l.entries[k])
    ∧ (l.lock e).Ordered ∧ (l.lock e).entries[(31 : Fin 32)].locked = false
    ∧ ∀ k : Fin 32, ((l.lock e).entries[k].locked = true ↔ k.val < (l.lock e).lockPtr.val)

/-- A global invalidate leaves locked entries alone and makes every other one invalid (rule R121); an invalidate-entry
can make a locked entry a hole, locked and never hit, until the TLB is unlocked (rules R122, R248); neither moves a
pointer. What an unlock does, which the source does not give, is the model's choice (rule R252, log 13). -/
def Obligations.InvalidateKeepsLockedEntries : Prop :=
  ∀ (l : Tlb) (mva : Word),
    (∀ k : Fin 32, (l.entries[k].locked = true → l.invalidate.entries[k] = l.entries[k])
      ∧ (l.entries[k].locked = false → l.invalidate.entries[k].valid = false))
    ∧ (l.invalidateEntry mva).find mva = none
    ∧ (∀ k : Fin 32, (l.invalidateEntry mva).entries[k].locked = l.entries[k].locked
      ∧ (l.entries[k].hits mva = true → ∀ a, (l.invalidateEntry mva).entries[k].hits a = false)
      ∧ (l.entries[k].hits mva = false → (l.invalidateEntry mva).entries[k] = l.entries[k])
      ∧ l.unlock.entries[k].locked = false)
    ∧ l.unlock.lockPtr = 0
    ∧ l.invalidate.lockPtr = l.lockPtr ∧ l.invalidate.rrPtr = l.rrPtr
    ∧ (l.invalidateEntry mva).lockPtr = l.lockPtr ∧ (l.invalidateEntry mva).rrPtr = l.rrPtr

/-! ## Privilege -/

/-- User mode can leave only through an exception (rule R370): after a step from User mode the machine is in User
mode, or at the vector of an exception in its mode, with IRQ disabled; no such step writes a CP15 register, nor a
fault, saved status or interrupt mask bit but by an exception's own entry (rules R46, R371, R372). -/
def Obligations.UserModeIsConfined : Prop :=
  (∀ s t : State, step s = .next t → s.ModeLegal → s.mode = .usr →
    t.mode = .usr
    ∨ ∃ k : Exception, t.mode = k.mode ∧ t.pc = t.vectorBase + k.offset ∧ t.thumb = false ∧ t.irqDisabled = true)
  ∧ (∀ s t : State, step s = .next t → s.ModeLegal → s.mode = .usr →
    t.cp15 = s.cp15 ∧ t.dcacheLock = s.dcacheLock
    ∧ (t.mode = .usr → t.fsr = s.fsr ∧ t.far = s.far ∧ t.irqDisabled = s.irqDisabled
      ∧ t.fiqDisabled = s.fiqDisabled ∧ ∀ m, t.spsr m = s.spsr m))
end

