-- ==== Sys2Proof/Laws/Memory.lean ====
section
/-!
SUPPORT. Physical memory: what a read gives after a write, and that every write keeps the canonical form.
-/

namespace Sys2Proof.Machine.Memory

/-- A write leaves every other address as it was, in any list. -/
@[simp] theorem read_write_other (m : List Host.Cell) {x y : Nat} (v : Byte) (h : y ≠ x) :
    read (write m x v) y = read m y := by
  induction m with
  | nil =>
    simp only [write, read]
    split
    · rfl
    · simp [read, h.symm]
  | cons c rest ih =>
    obtain ⟨a, b⟩ := c
    simp only [write]
    split
    · split
      · rfl
      · simp [read, h.symm]
    · split
      · next hxa =>
        subst hxa
        split
        · simp [read, h.symm]
        · simp [read, h.symm]
      · simp only [read, ih]

/-- Below the bound of a canonical list nothing is listed. -/
theorem read_below {lo : Nat} {m : List Host.Cell} (h : wfAbove lo m = true) {x : Nat} (hx : x < lo) :
    read m x = unlisted := by
  induction m generalizing lo with
  | nil => rfl
  | cons c rest ih =>
    obtain ⟨a, b⟩ := c
    simp only [wfAbove, Bool.and_eq_true, decide_eq_true_eq] at h
    have : a ≠ x := by omega
    simp only [read, this, if_false]
    exact ih h.2 (by omega)

/-- A read after a write to the same address gives the value written. -/
theorem read_write_same_above {lo : Nat} {m : List Host.Cell} (h : wfAbove lo m = true) (x : Nat) (v : Byte) :
    read (write m x v) x = v := by
  induction m generalizing lo with
  | nil =>
    simp only [write]
    split
    · next hv => rw [hv]; rfl
    · simp [read]
  | cons c rest ih =>
    obtain ⟨a, b⟩ := c
    simp only [wfAbove, Bool.and_eq_true, decide_eq_true_eq] at h
    simp only [write]
    split
    · next hxa =>
      split
      · next hv =>
        have : a ≠ x := by omega
        simp only [read, this, if_false, hv]
        exact read_below h.2 (by omega)
      · simp [read]
    · split
      · next hxa =>
        subst hxa
        split
        · next hv => rw [hv]; exact read_below h.2 (by omega)
        · simp [read]
      · next hne =>
        have : a ≠ x := fun e => hne e.symm
        simp only [read, this, if_false]
        exact ih h.2

/-- A read after a write to the same address gives the value written. -/
theorem read_write_same {m : List Host.Cell} (h : wf m = true) (x : Nat) (v : Byte) : read (write m x v) x = v :=
  read_write_same_above h x v

theorem wfAbove_mono {lo lo' : Nat} {m : List Host.Cell} (h : wfAbove lo m = true) (hl : lo' ≤ lo) :
    wfAbove lo' m = true := by
  cases m with
  | nil => rfl
  | cons c rest =>
    obtain ⟨a, b⟩ := c
    simp only [wfAbove, Bool.and_eq_true, decide_eq_true_eq] at h ⊢
    exact ⟨⟨⟨by omega, h.1.1.2⟩, h.1.2⟩, h.2⟩

theorem wfAbove_write {lo : Nat} {m : List Host.Cell} (h : wfAbove lo m = true) {x : Nat} (hlo : lo ≤ x)
    (hx : x < size) (v : Byte) : wfAbove lo (write m x v) = true := by
  induction m generalizing lo with
  | nil =>
    simp only [write]
    split
    · rfl
    · next hv => simp [wfAbove, hlo, hx, hv]
  | cons c rest ih =>
    obtain ⟨a, b⟩ := c
    have h' := h
    simp only [wfAbove, Bool.and_eq_true, decide_eq_true_eq] at h
    simp only [write]
    split
    · next hxa =>
      split
      · exact h'
      · next hv =>
        simp only [wfAbove, Bool.and_eq_true, decide_eq_true_eq]
        exact ⟨⟨⟨hlo, hx⟩, hv⟩, ⟨⟨by omega, h.1.1.2⟩, h.1.2⟩, h.2⟩
    · split
      · next hxa =>
        subst hxa
        split
        · exact wfAbove_mono h.2 (by omega)
        · next hv =>
          simp only [wfAbove, Bool.and_eq_true, decide_eq_true_eq]
          exact ⟨⟨⟨hlo, hx⟩, hv⟩, h.2⟩
      · next hne =>
        simp only [wfAbove, Bool.and_eq_true, decide_eq_true_eq]
        exact ⟨h.1, ih h.2 (by omega)⟩

/-- A write inside the address space keeps the canonical form. -/
theorem wf_write {m : List Host.Cell} (h : wf m = true) {x : Nat} (hx : x < size) (v : Byte) :
    wf (write m x v) = true := wfAbove_write h (Nat.zero_le x) hx v

/-- Successive writes inside the address space keep the canonical form. -/
theorem wf_writeBytes {m : List Host.Cell} (h : wf m = true) (bs : List Byte) {a : Nat}
    (ha : a + bs.length ≤ size) : wf (writeBytes m a bs) = true := by
  induction bs generalizing m a with
  | nil => exact h
  | cons b rest ih =>
    simp only [List.length_cons] at ha
    exact ih (wf_write h (by omega) b) (by omega)

/-- Successive writes leave every byte outside them as it was. -/
theorem read_writeBytes_outside (m : List Host.Cell) (bs : List Byte) {a x : Nat}
    (hx : x < a ∨ a + bs.length ≤ x) : read (writeBytes m a bs) x = read m x := by
  induction bs generalizing m a with
  | nil => rfl
  | cons b rest ih =>
    simp only [List.length_cons] at hx
    rw [writeBytes, ih _ (by omega), read_write_other _ _ (by omega)]

/-- A read inside successive writes gives the byte written there. -/
theorem read_writeBytes_inside {m : List Host.Cell} (h : wf m = true) (bs : List Byte) {a k : Nat}
    (ha : a + bs.length ≤ size) (hk : k < bs.length) : read (writeBytes m a bs) (a + k) = bs[k] := by
  induction bs generalizing m a k with
  | nil => simp at hk
  | cons b rest ih =>
    simp only [List.length_cons] at ha hk
    cases k with
    | zero =>
      rw [Nat.add_zero, writeBytes, read_writeBytes_outside _ _ (by omega)]
      exact read_write_same h a b
    | succ j =>
      have : a + (j + 1) = (a + 1) + j := by omega
      rw [this, writeBytes, ih (wf_write h (by omega) b) (by omega) (by omega)]
      rfl

/-- The four bytes of a word, put together again. -/
theorem wordOfBytes_bytes (w : Word) :
    wordOfBytes (byteOfWord w 0) (byteOfWord w 1) (byteOfWord w 2) (byteOfWord w 3) = w := by
  apply BitVec.eq_of_getLsbD_eq
  intro i hi
  simp only [wordOfBytes, byteOfWord, BitVec.getLsbD_append, BitVec.getLsbD_extractLsb']
  rcases (by omega : i < 8 ∨ (8 ≤ i ∧ i < 16) ∨ (16 ≤ i ∧ i < 24) ∨ (24 ≤ i ∧ i < 32)) with h | h | h | h
  · simp [h]
  · have e : 8 + (i - 8) = i := by omega
    simp [show ¬ i < 8 by omega, show i - 8 < 8 by omega, e]
  · have e : 16 + (i - 8 - 8) = i := by omega
    simp [show ¬ i < 8 by omega, show ¬ i - 8 < 8 by omega, show i - 8 - 8 < 8 by omega, e]
  · have e : 24 + (i - 8 - 8 - 8) = i := by omega
    simp [show ¬ i < 8 by omega, show ¬ i - 8 < 8 by omega, show ¬ i - 8 - 8 < 8 by omega,
      show i - 8 - 8 - 8 < 8 by omega, e]

/-- A word read where it was written. -/
theorem readWord_writeWord {m : List Host.Cell} (h : wf m = true) {a : Nat} (ha : a + 4 ≤ size) (v : Word) :
    readWord (writeWord m a v) a = v := by
  have r : ∀ k (hk : k < 4), read (writeWord m a v) (a + k) = (bytesOfWord v)[k]'hk := fun k hk =>
    read_writeBytes_inside h (bytesOfWord v) ha hk
  have r0 := r 0 (by omega)
  simp only [Nat.add_zero] at r0
  rw [readWord, r0, r 1 (by omega), r 2 (by omega), r 3 (by omega)]
  exact wordOfBytes_bytes v

/-- A word read outside the bytes written. -/
theorem readWord_writeBytes_outside (m : List Host.Cell) (bs : List Byte) {a x : Nat}
    (hx : x + 4 ≤ a ∨ a + bs.length ≤ x) : readWord (writeBytes m a bs) x = readWord m x := by
  simp only [readWord]
  rw [read_writeBytes_outside _ _ (by omega), read_writeBytes_outside _ _ (by omega),
    read_writeBytes_outside _ _ (by omega), read_writeBytes_outside _ _ (by omega)]

end Sys2Proof.Machine.Memory
end

