-- ==== Sys2Proof/Laws/State.lean ====
section
/-!
SUPPORT. One lemma for each field of `State` under each update of it, so that no proof unfolds a record update.
-/

namespace Sys2Proof.Machine

/-! ### `s.setBanked m r v` -/

@[simp] theorem State.setBanked_gpr (s : State) (m : Mode) (r : Reg) (v : Word) : (s.setBanked m r v).gpr = s.gpr.set (bank m r) v := rfl
@[simp] theorem State.setBanked_pc (s : State) (m : Mode) (r : Reg) (v : Word) : (s.setBanked m r v).pc = s.pc := rfl
@[simp] theorem State.setBanked_cpsr (s : State) (m : Mode) (r : Reg) (v : Word) : (s.setBanked m r v).cpsr = s.cpsr := rfl
@[simp] theorem State.setBanked_spsrFiq (s : State) (m : Mode) (r : Reg) (v : Word) : (s.setBanked m r v).spsrFiq = s.spsrFiq := rfl
@[simp] theorem State.setBanked_spsrIrq (s : State) (m : Mode) (r : Reg) (v : Word) : (s.setBanked m r v).spsrIrq = s.spsrIrq := rfl
@[simp] theorem State.setBanked_spsrSvc (s : State) (m : Mode) (r : Reg) (v : Word) : (s.setBanked m r v).spsrSvc = s.spsrSvc := rfl
@[simp] theorem State.setBanked_spsrAbt (s : State) (m : Mode) (r : Reg) (v : Word) : (s.setBanked m r v).spsrAbt = s.spsrAbt := rfl
@[simp] theorem State.setBanked_spsrUnd (s : State) (m : Mode) (r : Reg) (v : Word) : (s.setBanked m r v).spsrUnd = s.spsrUnd := rfl
@[simp] theorem State.setBanked_acc0 (s : State) (m : Mode) (r : Reg) (v : Word) : (s.setBanked m r v).acc0 = s.acc0 := rfl
@[simp] theorem State.setBanked_cp15 (s : State) (m : Mode) (r : Reg) (v : Word) : (s.setBanked m r v).cp15 = s.cp15 := rfl
@[simp] theorem State.setBanked_eff (s : State) (m : Mode) (r : Reg) (v : Word) : (s.setBanked m r v).eff = s.eff := rfl
@[simp] theorem State.setBanked_fsr (s : State) (m : Mode) (r : Reg) (v : Word) : (s.setBanked m r v).fsr = s.fsr := rfl
@[simp] theorem State.setBanked_far (s : State) (m : Mode) (r : Reg) (v : Word) : (s.setBanked m r v).far = s.far := rfl
@[simp] theorem State.setBanked_dcacheLock (s : State) (m : Mode) (r : Reg) (v : Word) : (s.setBanked m r v).dcacheLock = s.dcacheLock := rfl
@[simp] theorem State.setBanked_pending (s : State) (m : Mode) (r : Reg) (v : Word) : (s.setBanked m r v).pending = s.pending := rfl
@[simp] theorem State.setBanked_cpwait (s : State) (m : Mode) (r : Reg) (v : Word) : (s.setBanked m r v).cpwait = s.cpwait := rfl
@[simp] theorem State.setBanked_itlb (s : State) (m : Mode) (r : Reg) (v : Word) : (s.setBanked m r v).itlb = s.itlb := rfl
@[simp] theorem State.setBanked_dtlb (s : State) (m : Mode) (r : Reg) (v : Word) : (s.setBanked m r v).dtlb = s.dtlb := rfl
@[simp] theorem State.setBanked_mem (s : State) (m : Mode) (r : Reg) (v : Word) : (s.setBanked m r v).mem = s.mem := rfl
@[simp] theorem State.setBanked_stored (s : State) (m : Mode) (r : Reg) (v : Word) : (s.setBanked m r v).stored = s.stored := rfl
@[simp] theorem State.setBanked_dirty (s : State) (m : Mode) (r : Reg) (v : Word) : (s.setBanked m r v).dirty = s.dirty := rfl
@[simp] theorem State.setBanked_subWord (s : State) (m : Mode) (r : Reg) (v : Word) : (s.setBanked m r v).subWord = s.subWord := rfl
@[simp] theorem State.setBanked_owed (s : State) (m : Mode) (r : Reg) (v : Word) : (s.setBanked m r v).owed = s.owed := rfl
@[simp] theorem State.setBanked_env (s : State) (m : Mode) (r : Reg) (v : Word) : (s.setBanked m r v).env = s.env := rfl
@[simp] theorem State.setBanked_tick (s : State) (m : Mode) (r : Reg) (v : Word) : (s.setBanked m r v).tick = s.tick := rfl
@[simp] theorem State.setBanked_pastTop (s : State) (m : Mode) (r : Reg) (v : Word) : (s.setBanked m r v).pastTop = s.pastTop := rfl

/-! ### `s.branchTo t` -/

@[simp] theorem State.branchTo_gpr (s : State) (t : Word) : (s.branchTo t).gpr = s.gpr := rfl
@[simp] theorem State.branchTo_pc (s : State) (t : Word) : (s.branchTo t).pc = t := rfl
@[simp] theorem State.branchTo_cpsr (s : State) (t : Word) : (s.branchTo t).cpsr = s.cpsr := rfl
@[simp] theorem State.branchTo_spsrFiq (s : State) (t : Word) : (s.branchTo t).spsrFiq = s.spsrFiq := rfl
@[simp] theorem State.branchTo_spsrIrq (s : State) (t : Word) : (s.branchTo t).spsrIrq = s.spsrIrq := rfl
@[simp] theorem State.branchTo_spsrSvc (s : State) (t : Word) : (s.branchTo t).spsrSvc = s.spsrSvc := rfl
@[simp] theorem State.branchTo_spsrAbt (s : State) (t : Word) : (s.branchTo t).spsrAbt = s.spsrAbt := rfl
@[simp] theorem State.branchTo_spsrUnd (s : State) (t : Word) : (s.branchTo t).spsrUnd = s.spsrUnd := rfl
@[simp] theorem State.branchTo_acc0 (s : State) (t : Word) : (s.branchTo t).acc0 = s.acc0 := rfl
@[simp] theorem State.branchTo_cp15 (s : State) (t : Word) : (s.branchTo t).cp15 = s.cp15 := rfl
@[simp] theorem State.branchTo_eff (s : State) (t : Word) : (s.branchTo t).eff = s.eff := rfl
@[simp] theorem State.branchTo_fsr (s : State) (t : Word) : (s.branchTo t).fsr = s.fsr := rfl
@[simp] theorem State.branchTo_far (s : State) (t : Word) : (s.branchTo t).far = s.far := rfl
@[simp] theorem State.branchTo_dcacheLock (s : State) (t : Word) : (s.branchTo t).dcacheLock = s.dcacheLock := rfl
@[simp] theorem State.branchTo_pending (s : State) (t : Word) : (s.branchTo t).pending = s.pending := rfl
@[simp] theorem State.branchTo_cpwait (s : State) (t : Word) : (s.branchTo t).cpwait = s.cpwait := rfl
@[simp] theorem State.branchTo_itlb (s : State) (t : Word) : (s.branchTo t).itlb = s.itlb := rfl
@[simp] theorem State.branchTo_dtlb (s : State) (t : Word) : (s.branchTo t).dtlb = s.dtlb := rfl
@[simp] theorem State.branchTo_mem (s : State) (t : Word) : (s.branchTo t).mem = s.mem := rfl
@[simp] theorem State.branchTo_stored (s : State) (t : Word) : (s.branchTo t).stored = s.stored := rfl
@[simp] theorem State.branchTo_dirty (s : State) (t : Word) : (s.branchTo t).dirty = s.dirty := rfl
@[simp] theorem State.branchTo_subWord (s : State) (t : Word) : (s.branchTo t).subWord = s.subWord := rfl
@[simp] theorem State.branchTo_owed (s : State) (t : Word) : (s.branchTo t).owed = s.owed := rfl
@[simp] theorem State.branchTo_env (s : State) (t : Word) : (s.branchTo t).env = s.env := rfl
@[simp] theorem State.branchTo_tick (s : State) (t : Word) : (s.branchTo t).tick = s.tick := rfl
@[simp] theorem State.branchTo_pastTop (s : State) (t : Word) : (s.branchTo t).pastTop = false := rfl

/-! ### `s.advance` -/

@[simp] theorem State.advance_gpr (s : State) : (s.advance).gpr = s.gpr := rfl
@[simp] theorem State.advance_pc (s : State) : (s.advance).pc = s.pc + 4 := rfl
@[simp] theorem State.advance_cpsr (s : State) : (s.advance).cpsr = s.cpsr := rfl
@[simp] theorem State.advance_spsrFiq (s : State) : (s.advance).spsrFiq = s.spsrFiq := rfl
@[simp] theorem State.advance_spsrIrq (s : State) : (s.advance).spsrIrq = s.spsrIrq := rfl
@[simp] theorem State.advance_spsrSvc (s : State) : (s.advance).spsrSvc = s.spsrSvc := rfl
@[simp] theorem State.advance_spsrAbt (s : State) : (s.advance).spsrAbt = s.spsrAbt := rfl
@[simp] theorem State.advance_spsrUnd (s : State) : (s.advance).spsrUnd = s.spsrUnd := rfl
@[simp] theorem State.advance_acc0 (s : State) : (s.advance).acc0 = s.acc0 := rfl
@[simp] theorem State.advance_cp15 (s : State) : (s.advance).cp15 = s.cp15 := rfl
@[simp] theorem State.advance_eff (s : State) : (s.advance).eff = s.eff := rfl
@[simp] theorem State.advance_fsr (s : State) : (s.advance).fsr = s.fsr := rfl
@[simp] theorem State.advance_far (s : State) : (s.advance).far = s.far := rfl
@[simp] theorem State.advance_dcacheLock (s : State) : (s.advance).dcacheLock = s.dcacheLock := rfl
@[simp] theorem State.advance_pending (s : State) : (s.advance).pending = s.pending := rfl
@[simp] theorem State.advance_cpwait (s : State) : (s.advance).cpwait = s.cpwait := rfl
@[simp] theorem State.advance_itlb (s : State) : (s.advance).itlb = s.itlb := rfl
@[simp] theorem State.advance_dtlb (s : State) : (s.advance).dtlb = s.dtlb := rfl
@[simp] theorem State.advance_mem (s : State) : (s.advance).mem = s.mem := rfl
@[simp] theorem State.advance_stored (s : State) : (s.advance).stored = s.stored := rfl
@[simp] theorem State.advance_dirty (s : State) : (s.advance).dirty = s.dirty := rfl
@[simp] theorem State.advance_subWord (s : State) : (s.advance).subWord = s.subWord := rfl
@[simp] theorem State.advance_owed (s : State) : (s.advance).owed = s.owed := rfl
@[simp] theorem State.advance_env (s : State) : (s.advance).env = s.env := rfl
@[simp] theorem State.advance_tick (s : State) : (s.advance).tick = s.tick := rfl
@[simp] theorem State.advance_pastTop (s : State) : (s.advance).pastTop = decide (4294967292 ≤ s.pc.toNat) := rfl

/-! ### `s.setCpsr v` -/

@[simp] theorem State.setCpsr_gpr (s : State) (v : Word) : (s.setCpsr v).gpr = s.gpr := rfl
@[simp] theorem State.setCpsr_pc (s : State) (v : Word) : (s.setCpsr v).pc = s.pc := rfl
@[simp] theorem State.setCpsr_cpsr (s : State) (v : Word) : (s.setCpsr v).cpsr = v := rfl
@[simp] theorem State.setCpsr_spsrFiq (s : State) (v : Word) : (s.setCpsr v).spsrFiq = s.spsrFiq := rfl
@[simp] theorem State.setCpsr_spsrIrq (s : State) (v : Word) : (s.setCpsr v).spsrIrq = s.spsrIrq := rfl
@[simp] theorem State.setCpsr_spsrSvc (s : State) (v : Word) : (s.setCpsr v).spsrSvc = s.spsrSvc := rfl
@[simp] theorem State.setCpsr_spsrAbt (s : State) (v : Word) : (s.setCpsr v).spsrAbt = s.spsrAbt := rfl
@[simp] theorem State.setCpsr_spsrUnd (s : State) (v : Word) : (s.setCpsr v).spsrUnd = s.spsrUnd := rfl
@[simp] theorem State.setCpsr_acc0 (s : State) (v : Word) : (s.setCpsr v).acc0 = s.acc0 := rfl
@[simp] theorem State.setCpsr_cp15 (s : State) (v : Word) : (s.setCpsr v).cp15 = s.cp15 := rfl
@[simp] theorem State.setCpsr_eff (s : State) (v : Word) : (s.setCpsr v).eff = s.eff := rfl
@[simp] theorem State.setCpsr_fsr (s : State) (v : Word) : (s.setCpsr v).fsr = s.fsr := rfl
@[simp] theorem State.setCpsr_far (s : State) (v : Word) : (s.setCpsr v).far = s.far := rfl
@[simp] theorem State.setCpsr_dcacheLock (s : State) (v : Word) : (s.setCpsr v).dcacheLock = s.dcacheLock := rfl
@[simp] theorem State.setCpsr_pending (s : State) (v : Word) : (s.setCpsr v).pending = s.pending := rfl
@[simp] theorem State.setCpsr_cpwait (s : State) (v : Word) : (s.setCpsr v).cpwait = s.cpwait := rfl
@[simp] theorem State.setCpsr_itlb (s : State) (v : Word) : (s.setCpsr v).itlb = s.itlb := rfl
@[simp] theorem State.setCpsr_dtlb (s : State) (v : Word) : (s.setCpsr v).dtlb = s.dtlb := rfl
@[simp] theorem State.setCpsr_mem (s : State) (v : Word) : (s.setCpsr v).mem = s.mem := rfl
@[simp] theorem State.setCpsr_stored (s : State) (v : Word) : (s.setCpsr v).stored = s.stored := rfl
@[simp] theorem State.setCpsr_dirty (s : State) (v : Word) : (s.setCpsr v).dirty = s.dirty := rfl
@[simp] theorem State.setCpsr_subWord (s : State) (v : Word) : (s.setCpsr v).subWord = s.subWord := rfl
@[simp] theorem State.setCpsr_owed (s : State) (v : Word) : (s.setCpsr v).owed = s.owed := rfl
@[simp] theorem State.setCpsr_env (s : State) (v : Word) : (s.setCpsr v).env = s.env := rfl
@[simp] theorem State.setCpsr_tick (s : State) (v : Word) : (s.setCpsr v).tick = s.tick := rfl
@[simp] theorem State.setCpsr_pastTop (s : State) (v : Word) : (s.setCpsr v).pastTop = s.pastTop := rfl

/-! ### `s.endStep` -/

@[simp] theorem State.endStep_gpr (s : State) : (s.endStep).gpr = s.gpr := rfl
@[simp] theorem State.endStep_pc (s : State) : (s.endStep).pc = s.pc := rfl
@[simp] theorem State.endStep_cpsr (s : State) : (s.endStep).cpsr = s.cpsr := rfl
@[simp] theorem State.endStep_spsrFiq (s : State) : (s.endStep).spsrFiq = s.spsrFiq := rfl
@[simp] theorem State.endStep_spsrIrq (s : State) : (s.endStep).spsrIrq = s.spsrIrq := rfl
@[simp] theorem State.endStep_spsrSvc (s : State) : (s.endStep).spsrSvc = s.spsrSvc := rfl
@[simp] theorem State.endStep_spsrAbt (s : State) : (s.endStep).spsrAbt = s.spsrAbt := rfl
@[simp] theorem State.endStep_spsrUnd (s : State) : (s.endStep).spsrUnd = s.spsrUnd := rfl
@[simp] theorem State.endStep_acc0 (s : State) : (s.endStep).acc0 = s.acc0 := rfl
@[simp] theorem State.endStep_cp15 (s : State) : (s.endStep).cp15 = s.cp15 := rfl
@[simp] theorem State.endStep_eff (s : State) : (s.endStep).eff = s.eff := rfl
@[simp] theorem State.endStep_fsr (s : State) : (s.endStep).fsr = s.fsr := rfl
@[simp] theorem State.endStep_far (s : State) : (s.endStep).far = s.far := rfl
@[simp] theorem State.endStep_dcacheLock (s : State) : (s.endStep).dcacheLock = s.dcacheLock := rfl
@[simp] theorem State.endStep_pending (s : State) : (s.endStep).pending = s.pending := rfl
@[simp] theorem State.endStep_cpwait (s : State) : (s.endStep).cpwait = s.cpwait := rfl
@[simp] theorem State.endStep_itlb (s : State) : (s.endStep).itlb = s.itlb := rfl
@[simp] theorem State.endStep_dtlb (s : State) : (s.endStep).dtlb = s.dtlb := rfl
@[simp] theorem State.endStep_mem (s : State) : (s.endStep).mem = s.mem := rfl
@[simp] theorem State.endStep_stored (s : State) : (s.endStep).stored = s.stored := rfl
@[simp] theorem State.endStep_dirty (s : State) : (s.endStep).dirty = s.dirty := rfl
@[simp] theorem State.endStep_subWord (s : State) : (s.endStep).subWord = s.subWord := rfl
@[simp] theorem State.endStep_owed (s : State) : (s.endStep).owed = s.owed := rfl
@[simp] theorem State.endStep_env (s : State) : (s.endStep).env = s.env.tail := rfl
@[simp] theorem State.endStep_tick (s : State) : (s.endStep).tick = s.tick + 1 := rfl
@[simp] theorem State.endStep_pastTop (s : State) : (s.endStep).pastTop = s.pastTop := rfl

/-! ### `s.issue e` -/

@[simp] theorem State.issue_gpr (s : State) (e : Cp15Effect) : (s.issue e).gpr = s.gpr := rfl
@[simp] theorem State.issue_pc (s : State) (e : Cp15Effect) : (s.issue e).pc = s.pc := rfl
@[simp] theorem State.issue_cpsr (s : State) (e : Cp15Effect) : (s.issue e).cpsr = s.cpsr := rfl
@[simp] theorem State.issue_spsrFiq (s : State) (e : Cp15Effect) : (s.issue e).spsrFiq = s.spsrFiq := rfl
@[simp] theorem State.issue_spsrIrq (s : State) (e : Cp15Effect) : (s.issue e).spsrIrq = s.spsrIrq := rfl
@[simp] theorem State.issue_spsrSvc (s : State) (e : Cp15Effect) : (s.issue e).spsrSvc = s.spsrSvc := rfl
@[simp] theorem State.issue_spsrAbt (s : State) (e : Cp15Effect) : (s.issue e).spsrAbt = s.spsrAbt := rfl
@[simp] theorem State.issue_spsrUnd (s : State) (e : Cp15Effect) : (s.issue e).spsrUnd = s.spsrUnd := rfl
@[simp] theorem State.issue_acc0 (s : State) (e : Cp15Effect) : (s.issue e).acc0 = s.acc0 := rfl
@[simp] theorem State.issue_cp15 (s : State) (e : Cp15Effect) : (s.issue e).cp15 = s.cp15 := rfl
@[simp] theorem State.issue_eff (s : State) (e : Cp15Effect) : (s.issue e).eff = s.eff := rfl
@[simp] theorem State.issue_fsr (s : State) (e : Cp15Effect) : (s.issue e).fsr = s.fsr := rfl
@[simp] theorem State.issue_far (s : State) (e : Cp15Effect) : (s.issue e).far = s.far := rfl
@[simp] theorem State.issue_dcacheLock (s : State) (e : Cp15Effect) : (s.issue e).dcacheLock = s.dcacheLock := rfl
@[simp] theorem State.issue_pending (s : State) (e : Cp15Effect) : (s.issue e).pending = s.pending ++ [e] := rfl
@[simp] theorem State.issue_cpwait (s : State) (e : Cp15Effect) : (s.issue e).cpwait = s.cpwait := rfl
@[simp] theorem State.issue_itlb (s : State) (e : Cp15Effect) : (s.issue e).itlb = s.itlb := rfl
@[simp] theorem State.issue_dtlb (s : State) (e : Cp15Effect) : (s.issue e).dtlb = s.dtlb := rfl
@[simp] theorem State.issue_mem (s : State) (e : Cp15Effect) : (s.issue e).mem = s.mem := rfl
@[simp] theorem State.issue_stored (s : State) (e : Cp15Effect) : (s.issue e).stored = s.stored := rfl
@[simp] theorem State.issue_dirty (s : State) (e : Cp15Effect) : (s.issue e).dirty = s.dirty := rfl
@[simp] theorem State.issue_subWord (s : State) (e : Cp15Effect) : (s.issue e).subWord = s.subWord := rfl
@[simp] theorem State.issue_owed (s : State) (e : Cp15Effect) : (s.issue e).owed = s.owed := rfl
@[simp] theorem State.issue_env (s : State) (e : Cp15Effect) : (s.issue e).env = s.env := rfl
@[simp] theorem State.issue_tick (s : State) (e : Cp15Effect) : (s.issue e).tick = s.tick := rfl
@[simp] theorem State.issue_pastTop (s : State) (e : Cp15Effect) : (s.issue e).pastTop = s.pastTop := rfl

/-! ### `s.ageOwed` -/

@[simp] theorem State.ageOwed_gpr (s : State) : (s.ageOwed).gpr = s.gpr := rfl
@[simp] theorem State.ageOwed_pc (s : State) : (s.ageOwed).pc = s.pc := rfl
@[simp] theorem State.ageOwed_cpsr (s : State) : (s.ageOwed).cpsr = s.cpsr := rfl
@[simp] theorem State.ageOwed_spsrFiq (s : State) : (s.ageOwed).spsrFiq = s.spsrFiq := rfl
@[simp] theorem State.ageOwed_spsrIrq (s : State) : (s.ageOwed).spsrIrq = s.spsrIrq := rfl
@[simp] theorem State.ageOwed_spsrSvc (s : State) : (s.ageOwed).spsrSvc = s.spsrSvc := rfl
@[simp] theorem State.ageOwed_spsrAbt (s : State) : (s.ageOwed).spsrAbt = s.spsrAbt := rfl
@[simp] theorem State.ageOwed_spsrUnd (s : State) : (s.ageOwed).spsrUnd = s.spsrUnd := rfl
@[simp] theorem State.ageOwed_acc0 (s : State) : (s.ageOwed).acc0 = s.acc0 := rfl
@[simp] theorem State.ageOwed_cp15 (s : State) : (s.ageOwed).cp15 = s.cp15 := rfl
@[simp] theorem State.ageOwed_eff (s : State) : (s.ageOwed).eff = s.eff := rfl
@[simp] theorem State.ageOwed_fsr (s : State) : (s.ageOwed).fsr = s.fsr := rfl
@[simp] theorem State.ageOwed_far (s : State) : (s.ageOwed).far = s.far := rfl
@[simp] theorem State.ageOwed_dcacheLock (s : State) : (s.ageOwed).dcacheLock = s.dcacheLock := rfl
@[simp] theorem State.ageOwed_pending (s : State) : (s.ageOwed).pending = s.pending := rfl
@[simp] theorem State.ageOwed_cpwait (s : State) : (s.ageOwed).cpwait = s.cpwait := rfl
@[simp] theorem State.ageOwed_itlb (s : State) : (s.ageOwed).itlb = s.itlb := rfl
@[simp] theorem State.ageOwed_dtlb (s : State) : (s.ageOwed).dtlb = s.dtlb := rfl
@[simp] theorem State.ageOwed_mem (s : State) : (s.ageOwed).mem = s.mem := rfl
@[simp] theorem State.ageOwed_stored (s : State) : (s.ageOwed).stored = s.stored := rfl
@[simp] theorem State.ageOwed_dirty (s : State) : (s.ageOwed).dirty = s.dirty := rfl
@[simp] theorem State.ageOwed_subWord (s : State) : (s.ageOwed).subWord = s.subWord := rfl
@[simp] theorem State.ageOwed_owed (s : State) : (s.ageOwed).owed = s.owed.map OwedAbort.age := rfl
@[simp] theorem State.ageOwed_env (s : State) : (s.ageOwed).env = s.env := rfl
@[simp] theorem State.ageOwed_tick (s : State) : (s.ageOwed).tick = s.tick := rfl
@[simp] theorem State.ageOwed_pastTop (s : State) : (s.ageOwed).pastTop = s.pastTop := rfl

/-! ### `s.setOwed l` -/

@[simp] theorem State.setOwed_gpr (s : State) (l : List OwedAbort) : (s.setOwed l).gpr = s.gpr := rfl
@[simp] theorem State.setOwed_pc (s : State) (l : List OwedAbort) : (s.setOwed l).pc = s.pc := rfl
@[simp] theorem State.setOwed_cpsr (s : State) (l : List OwedAbort) : (s.setOwed l).cpsr = s.cpsr := rfl
@[simp] theorem State.setOwed_spsrFiq (s : State) (l : List OwedAbort) : (s.setOwed l).spsrFiq = s.spsrFiq := rfl
@[simp] theorem State.setOwed_spsrIrq (s : State) (l : List OwedAbort) : (s.setOwed l).spsrIrq = s.spsrIrq := rfl
@[simp] theorem State.setOwed_spsrSvc (s : State) (l : List OwedAbort) : (s.setOwed l).spsrSvc = s.spsrSvc := rfl
@[simp] theorem State.setOwed_spsrAbt (s : State) (l : List OwedAbort) : (s.setOwed l).spsrAbt = s.spsrAbt := rfl
@[simp] theorem State.setOwed_spsrUnd (s : State) (l : List OwedAbort) : (s.setOwed l).spsrUnd = s.spsrUnd := rfl
@[simp] theorem State.setOwed_acc0 (s : State) (l : List OwedAbort) : (s.setOwed l).acc0 = s.acc0 := rfl
@[simp] theorem State.setOwed_cp15 (s : State) (l : List OwedAbort) : (s.setOwed l).cp15 = s.cp15 := rfl
@[simp] theorem State.setOwed_eff (s : State) (l : List OwedAbort) : (s.setOwed l).eff = s.eff := rfl
@[simp] theorem State.setOwed_fsr (s : State) (l : List OwedAbort) : (s.setOwed l).fsr = s.fsr := rfl
@[simp] theorem State.setOwed_far (s : State) (l : List OwedAbort) : (s.setOwed l).far = s.far := rfl
@[simp] theorem State.setOwed_dcacheLock (s : State) (l : List OwedAbort) : (s.setOwed l).dcacheLock = s.dcacheLock := rfl
@[simp] theorem State.setOwed_pending (s : State) (l : List OwedAbort) : (s.setOwed l).pending = s.pending := rfl
@[simp] theorem State.setOwed_cpwait (s : State) (l : List OwedAbort) : (s.setOwed l).cpwait = s.cpwait := rfl
@[simp] theorem State.setOwed_itlb (s : State) (l : List OwedAbort) : (s.setOwed l).itlb = s.itlb := rfl
@[simp] theorem State.setOwed_dtlb (s : State) (l : List OwedAbort) : (s.setOwed l).dtlb = s.dtlb := rfl
@[simp] theorem State.setOwed_mem (s : State) (l : List OwedAbort) : (s.setOwed l).mem = s.mem := rfl
@[simp] theorem State.setOwed_stored (s : State) (l : List OwedAbort) : (s.setOwed l).stored = s.stored := rfl
@[simp] theorem State.setOwed_dirty (s : State) (l : List OwedAbort) : (s.setOwed l).dirty = s.dirty := rfl
@[simp] theorem State.setOwed_subWord (s : State) (l : List OwedAbort) : (s.setOwed l).subWord = s.subWord := rfl
@[simp] theorem State.setOwed_owed (s : State) (l : List OwedAbort) : (s.setOwed l).owed = l := rfl
@[simp] theorem State.setOwed_env (s : State) (l : List OwedAbort) : (s.setOwed l).env = s.env := rfl
@[simp] theorem State.setOwed_tick (s : State) (l : List OwedAbort) : (s.setOwed l).tick = s.tick := rfl
@[simp] theorem State.setOwed_pastTop (s : State) (l : List OwedAbort) : (s.setOwed l).pastTop = s.pastTop := rfl

/-! ### `s.owe p l` -/

@[simp] theorem State.owe_gpr (s : State) (p : Policy) (l : Bool) : (s.owe p l).gpr = s.gpr := rfl
@[simp] theorem State.owe_pc (s : State) (p : Policy) (l : Bool) : (s.owe p l).pc = s.pc := rfl
@[simp] theorem State.owe_cpsr (s : State) (p : Policy) (l : Bool) : (s.owe p l).cpsr = s.cpsr := rfl
@[simp] theorem State.owe_spsrFiq (s : State) (p : Policy) (l : Bool) : (s.owe p l).spsrFiq = s.spsrFiq := rfl
@[simp] theorem State.owe_spsrIrq (s : State) (p : Policy) (l : Bool) : (s.owe p l).spsrIrq = s.spsrIrq := rfl
@[simp] theorem State.owe_spsrSvc (s : State) (p : Policy) (l : Bool) : (s.owe p l).spsrSvc = s.spsrSvc := rfl
@[simp] theorem State.owe_spsrAbt (s : State) (p : Policy) (l : Bool) : (s.owe p l).spsrAbt = s.spsrAbt := rfl
@[simp] theorem State.owe_spsrUnd (s : State) (p : Policy) (l : Bool) : (s.owe p l).spsrUnd = s.spsrUnd := rfl
@[simp] theorem State.owe_acc0 (s : State) (p : Policy) (l : Bool) : (s.owe p l).acc0 = s.acc0 := rfl
@[simp] theorem State.owe_cp15 (s : State) (p : Policy) (l : Bool) : (s.owe p l).cp15 = s.cp15 := rfl
@[simp] theorem State.owe_eff (s : State) (p : Policy) (l : Bool) : (s.owe p l).eff = s.eff := rfl
@[simp] theorem State.owe_fsr (s : State) (p : Policy) (l : Bool) : (s.owe p l).fsr = s.fsr := rfl
@[simp] theorem State.owe_far (s : State) (p : Policy) (l : Bool) : (s.owe p l).far = s.far := rfl
@[simp] theorem State.owe_dcacheLock (s : State) (p : Policy) (l : Bool) : (s.owe p l).dcacheLock = s.dcacheLock := rfl
@[simp] theorem State.owe_pending (s : State) (p : Policy) (l : Bool) : (s.owe p l).pending = s.pending := rfl
@[simp] theorem State.owe_cpwait (s : State) (p : Policy) (l : Bool) : (s.owe p l).cpwait = s.cpwait := rfl
@[simp] theorem State.owe_itlb (s : State) (p : Policy) (l : Bool) : (s.owe p l).itlb = s.itlb := rfl
@[simp] theorem State.owe_dtlb (s : State) (p : Policy) (l : Bool) : (s.owe p l).dtlb = s.dtlb := rfl
@[simp] theorem State.owe_mem (s : State) (p : Policy) (l : Bool) : (s.owe p l).mem = s.mem := rfl
@[simp] theorem State.owe_stored (s : State) (p : Policy) (l : Bool) : (s.owe p l).stored = s.stored := rfl
@[simp] theorem State.owe_dirty (s : State) (p : Policy) (l : Bool) : (s.owe p l).dirty = s.dirty := rfl
@[simp] theorem State.owe_subWord (s : State) (p : Policy) (l : Bool) : (s.owe p l).subWord = s.subWord := rfl
@[simp] theorem State.owe_owed (s : State) (p : Policy) (l : Bool) : (s.owe p l).owed = s.owed ++ s.abortOwed p l := rfl
@[simp] theorem State.owe_env (s : State) (p : Policy) (l : Bool) : (s.owe p l).env = s.env := rfl
@[simp] theorem State.owe_tick (s : State) (p : Policy) (l : Bool) : (s.owe p l).tick = s.tick := rfl
@[simp] theorem State.owe_pastTop (s : State) (p : Policy) (l : Bool) : (s.owe p l).pastTop = s.pastTop := rfl

/-! ### `s.noteSubWord` -/

@[simp] theorem State.noteSubWord_gpr (s : State) : (s.noteSubWord).gpr = s.gpr := rfl
@[simp] theorem State.noteSubWord_pc (s : State) : (s.noteSubWord).pc = s.pc := rfl
@[simp] theorem State.noteSubWord_cpsr (s : State) : (s.noteSubWord).cpsr = s.cpsr := rfl
@[simp] theorem State.noteSubWord_spsrFiq (s : State) : (s.noteSubWord).spsrFiq = s.spsrFiq := rfl
@[simp] theorem State.noteSubWord_spsrIrq (s : State) : (s.noteSubWord).spsrIrq = s.spsrIrq := rfl
@[simp] theorem State.noteSubWord_spsrSvc (s : State) : (s.noteSubWord).spsrSvc = s.spsrSvc := rfl
@[simp] theorem State.noteSubWord_spsrAbt (s : State) : (s.noteSubWord).spsrAbt = s.spsrAbt := rfl
@[simp] theorem State.noteSubWord_spsrUnd (s : State) : (s.noteSubWord).spsrUnd = s.spsrUnd := rfl
@[simp] theorem State.noteSubWord_acc0 (s : State) : (s.noteSubWord).acc0 = s.acc0 := rfl
@[simp] theorem State.noteSubWord_cp15 (s : State) : (s.noteSubWord).cp15 = s.cp15 := rfl
@[simp] theorem State.noteSubWord_eff (s : State) : (s.noteSubWord).eff = s.eff := rfl
@[simp] theorem State.noteSubWord_fsr (s : State) : (s.noteSubWord).fsr = s.fsr := rfl
@[simp] theorem State.noteSubWord_far (s : State) : (s.noteSubWord).far = s.far := rfl
@[simp] theorem State.noteSubWord_dcacheLock (s : State) : (s.noteSubWord).dcacheLock = s.dcacheLock := rfl
@[simp] theorem State.noteSubWord_pending (s : State) : (s.noteSubWord).pending = s.pending := rfl
@[simp] theorem State.noteSubWord_cpwait (s : State) : (s.noteSubWord).cpwait = s.cpwait := rfl
@[simp] theorem State.noteSubWord_itlb (s : State) : (s.noteSubWord).itlb = s.itlb := rfl
@[simp] theorem State.noteSubWord_dtlb (s : State) : (s.noteSubWord).dtlb = s.dtlb := rfl
@[simp] theorem State.noteSubWord_mem (s : State) : (s.noteSubWord).mem = s.mem := rfl
@[simp] theorem State.noteSubWord_stored (s : State) : (s.noteSubWord).stored = s.stored := rfl
@[simp] theorem State.noteSubWord_dirty (s : State) : (s.noteSubWord).dirty = s.dirty := rfl
@[simp] theorem State.noteSubWord_subWord (s : State) : (s.noteSubWord).subWord = true := rfl
@[simp] theorem State.noteSubWord_owed (s : State) : (s.noteSubWord).owed = s.owed := rfl
@[simp] theorem State.noteSubWord_env (s : State) : (s.noteSubWord).env = s.env := rfl
@[simp] theorem State.noteSubWord_tick (s : State) : (s.noteSubWord).tick = s.tick := rfl
@[simp] theorem State.noteSubWord_pastTop (s : State) : (s.noteSubWord).pastTop = s.pastTop := rfl

/-! ### `s.storeBytes p a bs` -/

@[simp] theorem State.storeBytes_gpr (s : State) (p : Policy) (a : Nat) (bs : List Byte) : (s.storeBytes p a bs).gpr = s.gpr := rfl
@[simp] theorem State.storeBytes_pc (s : State) (p : Policy) (a : Nat) (bs : List Byte) : (s.storeBytes p a bs).pc = s.pc := rfl
@[simp] theorem State.storeBytes_cpsr (s : State) (p : Policy) (a : Nat) (bs : List Byte) : (s.storeBytes p a bs).cpsr = s.cpsr := rfl
@[simp] theorem State.storeBytes_spsrFiq (s : State) (p : Policy) (a : Nat) (bs : List Byte) : (s.storeBytes p a bs).spsrFiq = s.spsrFiq := rfl
@[simp] theorem State.storeBytes_spsrIrq (s : State) (p : Policy) (a : Nat) (bs : List Byte) : (s.storeBytes p a bs).spsrIrq = s.spsrIrq := rfl
@[simp] theorem State.storeBytes_spsrSvc (s : State) (p : Policy) (a : Nat) (bs : List Byte) : (s.storeBytes p a bs).spsrSvc = s.spsrSvc := rfl
@[simp] theorem State.storeBytes_spsrAbt (s : State) (p : Policy) (a : Nat) (bs : List Byte) : (s.storeBytes p a bs).spsrAbt = s.spsrAbt := rfl
@[simp] theorem State.storeBytes_spsrUnd (s : State) (p : Policy) (a : Nat) (bs : List Byte) : (s.storeBytes p a bs).spsrUnd = s.spsrUnd := rfl
@[simp] theorem State.storeBytes_acc0 (s : State) (p : Policy) (a : Nat) (bs : List Byte) : (s.storeBytes p a bs).acc0 = s.acc0 := rfl
@[simp] theorem State.storeBytes_cp15 (s : State) (p : Policy) (a : Nat) (bs : List Byte) : (s.storeBytes p a bs).cp15 = s.cp15 := rfl
@[simp] theorem State.storeBytes_eff (s : State) (p : Policy) (a : Nat) (bs : List Byte) : (s.storeBytes p a bs).eff = s.eff := rfl
@[simp] theorem State.storeBytes_fsr (s : State) (p : Policy) (a : Nat) (bs : List Byte) : (s.storeBytes p a bs).fsr = s.fsr := rfl
@[simp] theorem State.storeBytes_far (s : State) (p : Policy) (a : Nat) (bs : List Byte) : (s.storeBytes p a bs).far = s.far := rfl
@[simp] theorem State.storeBytes_dcacheLock (s : State) (p : Policy) (a : Nat) (bs : List Byte) : (s.storeBytes p a bs).dcacheLock = s.dcacheLock := rfl
@[simp] theorem State.storeBytes_pending (s : State) (p : Policy) (a : Nat) (bs : List Byte) : (s.storeBytes p a bs).pending = s.pending := rfl
@[simp] theorem State.storeBytes_cpwait (s : State) (p : Policy) (a : Nat) (bs : List Byte) : (s.storeBytes p a bs).cpwait = s.cpwait := rfl
@[simp] theorem State.storeBytes_itlb (s : State) (p : Policy) (a : Nat) (bs : List Byte) : (s.storeBytes p a bs).itlb = s.itlb := rfl
@[simp] theorem State.storeBytes_dtlb (s : State) (p : Policy) (a : Nat) (bs : List Byte) : (s.storeBytes p a bs).dtlb = s.dtlb := rfl
@[simp] theorem State.storeBytes_mem (s : State) (p : Policy) (a : Nat) (bs : List Byte) : (s.storeBytes p a bs).mem = if s.storeVoided p then s.mem else Memory.writeBytes s.mem a (if s.now.dataError then badBytes s.tick a bs else bs) := rfl
@[simp] theorem State.storeBytes_stored (s : State) (p : Policy) (a : Nat) (bs : List Byte) : (s.storeBytes p a bs).stored = if s.storeVoided p then s.stored else noteStored s.stored (a / 4 * 4) := rfl
@[simp] theorem State.storeBytes_dirty (s : State) (p : Policy) (a : Nat) (bs : List Byte) : (s.storeBytes p a bs).dirty = (s.dirty || (p.isWriteBack && s.dataCacheOn)) := rfl
@[simp] theorem State.storeBytes_subWord (s : State) (p : Policy) (a : Nat) (bs : List Byte) : (s.storeBytes p a bs).subWord = s.subWord := rfl
@[simp] theorem State.storeBytes_owed (s : State) (p : Policy) (a : Nat) (bs : List Byte) : (s.storeBytes p a bs).owed = s.owed := rfl
@[simp] theorem State.storeBytes_env (s : State) (p : Policy) (a : Nat) (bs : List Byte) : (s.storeBytes p a bs).env = s.env := rfl
@[simp] theorem State.storeBytes_tick (s : State) (p : Policy) (a : Nat) (bs : List Byte) : (s.storeBytes p a bs).tick = s.tick := rfl
@[simp] theorem State.storeBytes_pastTop (s : State) (p : Policy) (a : Nat) (bs : List Byte) : (s.storeBytes p a bs).pastTop = s.pastTop := rfl

/-! ### `s.setReg r v` -/

@[simp] theorem State.setReg_cpsr (s : State) (r : Reg) (v : Word) : (s.setReg r v).cpsr = s.cpsr := by unfold State.setReg; split <;> rfl
@[simp] theorem State.setReg_spsrFiq (s : State) (r : Reg) (v : Word) : (s.setReg r v).spsrFiq = s.spsrFiq := by unfold State.setReg; split <;> rfl
@[simp] theorem State.setReg_spsrIrq (s : State) (r : Reg) (v : Word) : (s.setReg r v).spsrIrq = s.spsrIrq := by unfold State.setReg; split <;> rfl
@[simp] theorem State.setReg_spsrSvc (s : State) (r : Reg) (v : Word) : (s.setReg r v).spsrSvc = s.spsrSvc := by unfold State.setReg; split <;> rfl
@[simp] theorem State.setReg_spsrAbt (s : State) (r : Reg) (v : Word) : (s.setReg r v).spsrAbt = s.spsrAbt := by unfold State.setReg; split <;> rfl
@[simp] theorem State.setReg_spsrUnd (s : State) (r : Reg) (v : Word) : (s.setReg r v).spsrUnd = s.spsrUnd := by unfold State.setReg; split <;> rfl
@[simp] theorem State.setReg_acc0 (s : State) (r : Reg) (v : Word) : (s.setReg r v).acc0 = s.acc0 := by unfold State.setReg; split <;> rfl
@[simp] theorem State.setReg_cp15 (s : State) (r : Reg) (v : Word) : (s.setReg r v).cp15 = s.cp15 := by unfold State.setReg; split <;> rfl
@[simp] theorem State.setReg_eff (s : State) (r : Reg) (v : Word) : (s.setReg r v).eff = s.eff := by unfold State.setReg; split <;> rfl
@[simp] theorem State.setReg_fsr (s : State) (r : Reg) (v : Word) : (s.setReg r v).fsr = s.fsr := by unfold State.setReg; split <;> rfl
@[simp] theorem State.setReg_far (s : State) (r : Reg) (v : Word) : (s.setReg r v).far = s.far := by unfold State.setReg; split <;> rfl
@[simp] theorem State.setReg_dcacheLock (s : State) (r : Reg) (v : Word) : (s.setReg r v).dcacheLock = s.dcacheLock := by unfold State.setReg; split <;> rfl
@[simp] theorem State.setReg_pending (s : State) (r : Reg) (v : Word) : (s.setReg r v).pending = s.pending := by unfold State.setReg; split <;> rfl
@[simp] theorem State.setReg_cpwait (s : State) (r : Reg) (v : Word) : (s.setReg r v).cpwait = s.cpwait := by unfold State.setReg; split <;> rfl
@[simp] theorem State.setReg_itlb (s : State) (r : Reg) (v : Word) : (s.setReg r v).itlb = s.itlb := by unfold State.setReg; split <;> rfl
@[simp] theorem State.setReg_dtlb (s : State) (r : Reg) (v : Word) : (s.setReg r v).dtlb = s.dtlb := by unfold State.setReg; split <;> rfl
@[simp] theorem State.setReg_mem (s : State) (r : Reg) (v : Word) : (s.setReg r v).mem = s.mem := by unfold State.setReg; split <;> rfl
@[simp] theorem State.setReg_stored (s : State) (r : Reg) (v : Word) : (s.setReg r v).stored = s.stored := by unfold State.setReg; split <;> rfl
@[simp] theorem State.setReg_dirty (s : State) (r : Reg) (v : Word) : (s.setReg r v).dirty = s.dirty := by unfold State.setReg; split <;> rfl
@[simp] theorem State.setReg_subWord (s : State) (r : Reg) (v : Word) : (s.setReg r v).subWord = s.subWord := by unfold State.setReg; split <;> rfl
@[simp] theorem State.setReg_owed (s : State) (r : Reg) (v : Word) : (s.setReg r v).owed = s.owed := by unfold State.setReg; split <;> rfl
@[simp] theorem State.setReg_env (s : State) (r : Reg) (v : Word) : (s.setReg r v).env = s.env := by unfold State.setReg; split <;> rfl
@[simp] theorem State.setReg_tick (s : State) (r : Reg) (v : Word) : (s.setReg r v).tick = s.tick := by unfold State.setReg; split <;> rfl

/-! ### `s.setSpsr m v` -/

@[simp] theorem State.setSpsr_gpr (s : State) (m : Mode) (v : Word) : (s.setSpsr m v).gpr = s.gpr := by cases m <;> rfl
@[simp] theorem State.setSpsr_pc (s : State) (m : Mode) (v : Word) : (s.setSpsr m v).pc = s.pc := by cases m <;> rfl
@[simp] theorem State.setSpsr_cpsr (s : State) (m : Mode) (v : Word) : (s.setSpsr m v).cpsr = s.cpsr := by cases m <;> rfl
@[simp] theorem State.setSpsr_acc0 (s : State) (m : Mode) (v : Word) : (s.setSpsr m v).acc0 = s.acc0 := by cases m <;> rfl
@[simp] theorem State.setSpsr_cp15 (s : State) (m : Mode) (v : Word) : (s.setSpsr m v).cp15 = s.cp15 := by cases m <;> rfl
@[simp] theorem State.setSpsr_eff (s : State) (m : Mode) (v : Word) : (s.setSpsr m v).eff = s.eff := by cases m <;> rfl
@[simp] theorem State.setSpsr_fsr (s : State) (m : Mode) (v : Word) : (s.setSpsr m v).fsr = s.fsr := by cases m <;> rfl
@[simp] theorem State.setSpsr_far (s : State) (m : Mode) (v : Word) : (s.setSpsr m v).far = s.far := by cases m <;> rfl
@[simp] theorem State.setSpsr_dcacheLock (s : State) (m : Mode) (v : Word) : (s.setSpsr m v).dcacheLock = s.dcacheLock := by cases m <;> rfl
@[simp] theorem State.setSpsr_pending (s : State) (m : Mode) (v : Word) : (s.setSpsr m v).pending = s.pending := by cases m <;> rfl
@[simp] theorem State.setSpsr_cpwait (s : State) (m : Mode) (v : Word) : (s.setSpsr m v).cpwait = s.cpwait := by cases m <;> rfl
@[simp] theorem State.setSpsr_itlb (s : State) (m : Mode) (v : Word) : (s.setSpsr m v).itlb = s.itlb := by cases m <;> rfl
@[simp] theorem State.setSpsr_dtlb (s : State) (m : Mode) (v : Word) : (s.setSpsr m v).dtlb = s.dtlb := by cases m <;> rfl
@[simp] theorem State.setSpsr_mem (s : State) (m : Mode) (v : Word) : (s.setSpsr m v).mem = s.mem := by cases m <;> rfl
@[simp] theorem State.setSpsr_stored (s : State) (m : Mode) (v : Word) : (s.setSpsr m v).stored = s.stored := by cases m <;> rfl
@[simp] theorem State.setSpsr_dirty (s : State) (m : Mode) (v : Word) : (s.setSpsr m v).dirty = s.dirty := by cases m <;> rfl
@[simp] theorem State.setSpsr_subWord (s : State) (m : Mode) (v : Word) : (s.setSpsr m v).subWord = s.subWord := by cases m <;> rfl
@[simp] theorem State.setSpsr_owed (s : State) (m : Mode) (v : Word) : (s.setSpsr m v).owed = s.owed := by cases m <;> rfl
@[simp] theorem State.setSpsr_env (s : State) (m : Mode) (v : Word) : (s.setSpsr m v).env = s.env := by cases m <;> rfl
@[simp] theorem State.setSpsr_tick (s : State) (m : Mode) (v : Word) : (s.setSpsr m v).tick = s.tick := by cases m <;> rfl
@[simp] theorem State.setSpsr_pastTop (s : State) (m : Mode) (v : Word) : (s.setSpsr m v).pastTop = s.pastTop := by cases m <;> rfl

/-! ### `s.setTlb t v` -/

@[simp] theorem State.setTlb_gpr (s : State) (t : Side) (v : Tlb) : (s.setTlb t v).gpr = s.gpr := by cases t <;> rfl
@[simp] theorem State.setTlb_pc (s : State) (t : Side) (v : Tlb) : (s.setTlb t v).pc = s.pc := by cases t <;> rfl
@[simp] theorem State.setTlb_cpsr (s : State) (t : Side) (v : Tlb) : (s.setTlb t v).cpsr = s.cpsr := by cases t <;> rfl
@[simp] theorem State.setTlb_spsrFiq (s : State) (t : Side) (v : Tlb) : (s.setTlb t v).spsrFiq = s.spsrFiq := by cases t <;> rfl
@[simp] theorem State.setTlb_spsrIrq (s : State) (t : Side) (v : Tlb) : (s.setTlb t v).spsrIrq = s.spsrIrq := by cases t <;> rfl
@[simp] theorem State.setTlb_spsrSvc (s : State) (t : Side) (v : Tlb) : (s.setTlb t v).spsrSvc = s.spsrSvc := by cases t <;> rfl
@[simp] theorem State.setTlb_spsrAbt (s : State) (t : Side) (v : Tlb) : (s.setTlb t v).spsrAbt = s.spsrAbt := by cases t <;> rfl
@[simp] theorem State.setTlb_spsrUnd (s : State) (t : Side) (v : Tlb) : (s.setTlb t v).spsrUnd = s.spsrUnd := by cases t <;> rfl
@[simp] theorem State.setTlb_acc0 (s : State) (t : Side) (v : Tlb) : (s.setTlb t v).acc0 = s.acc0 := by cases t <;> rfl
@[simp] theorem State.setTlb_cp15 (s : State) (t : Side) (v : Tlb) : (s.setTlb t v).cp15 = s.cp15 := by cases t <;> rfl
@[simp] theorem State.setTlb_eff (s : State) (t : Side) (v : Tlb) : (s.setTlb t v).eff = s.eff := by cases t <;> rfl
@[simp] theorem State.setTlb_fsr (s : State) (t : Side) (v : Tlb) : (s.setTlb t v).fsr = s.fsr := by cases t <;> rfl
@[simp] theorem State.setTlb_far (s : State) (t : Side) (v : Tlb) : (s.setTlb t v).far = s.far := by cases t <;> rfl
@[simp] theorem State.setTlb_dcacheLock (s : State) (t : Side) (v : Tlb) : (s.setTlb t v).dcacheLock = s.dcacheLock := by cases t <;> rfl
@[simp] theorem State.setTlb_pending (s : State) (t : Side) (v : Tlb) : (s.setTlb t v).pending = s.pending := by cases t <;> rfl
@[simp] theorem State.setTlb_cpwait (s : State) (t : Side) (v : Tlb) : (s.setTlb t v).cpwait = s.cpwait := by cases t <;> rfl
@[simp] theorem State.setTlb_mem (s : State) (t : Side) (v : Tlb) : (s.setTlb t v).mem = s.mem := by cases t <;> rfl
@[simp] theorem State.setTlb_stored (s : State) (t : Side) (v : Tlb) : (s.setTlb t v).stored = s.stored := by cases t <;> rfl
@[simp] theorem State.setTlb_dirty (s : State) (t : Side) (v : Tlb) : (s.setTlb t v).dirty = s.dirty := by cases t <;> rfl
@[simp] theorem State.setTlb_subWord (s : State) (t : Side) (v : Tlb) : (s.setTlb t v).subWord = s.subWord := by cases t <;> rfl
@[simp] theorem State.setTlb_owed (s : State) (t : Side) (v : Tlb) : (s.setTlb t v).owed = s.owed := by cases t <;> rfl
@[simp] theorem State.setTlb_env (s : State) (t : Side) (v : Tlb) : (s.setTlb t v).env = s.env := by cases t <;> rfl
@[simp] theorem State.setTlb_tick (s : State) (t : Side) (v : Tlb) : (s.setTlb t v).tick = s.tick := by cases t <;> rfl
@[simp] theorem State.setTlb_pastTop (s : State) (t : Side) (v : Tlb) : (s.setTlb t v).pastTop = s.pastTop := by cases t <;> rfl

/-! ### `s.writeBack rn a` -/

@[simp] theorem State.writeBack_cpsr (s : State) (rn : Reg) (a : Address) : (s.writeBack rn a).cpsr = s.cpsr := by unfold State.writeBack; split <;> simp
@[simp] theorem State.writeBack_spsrFiq (s : State) (rn : Reg) (a : Address) : (s.writeBack rn a).spsrFiq = s.spsrFiq := by unfold State.writeBack; split <;> simp
@[simp] theorem State.writeBack_spsrIrq (s : State) (rn : Reg) (a : Address) : (s.writeBack rn a).spsrIrq = s.spsrIrq := by unfold State.writeBack; split <;> simp
@[simp] theorem State.writeBack_spsrSvc (s : State) (rn : Reg) (a : Address) : (s.writeBack rn a).spsrSvc = s.spsrSvc := by unfold State.writeBack; split <;> simp
@[simp] theorem State.writeBack_spsrAbt (s : State) (rn : Reg) (a : Address) : (s.writeBack rn a).spsrAbt = s.spsrAbt := by unfold State.writeBack; split <;> simp
@[simp] theorem State.writeBack_spsrUnd (s : State) (rn : Reg) (a : Address) : (s.writeBack rn a).spsrUnd = s.spsrUnd := by unfold State.writeBack; split <;> simp
@[simp] theorem State.writeBack_acc0 (s : State) (rn : Reg) (a : Address) : (s.writeBack rn a).acc0 = s.acc0 := by unfold State.writeBack; split <;> simp
@[simp] theorem State.writeBack_cp15 (s : State) (rn : Reg) (a : Address) : (s.writeBack rn a).cp15 = s.cp15 := by unfold State.writeBack; split <;> simp
@[simp] theorem State.writeBack_eff (s : State) (rn : Reg) (a : Address) : (s.writeBack rn a).eff = s.eff := by unfold State.writeBack; split <;> simp
@[simp] theorem State.writeBack_fsr (s : State) (rn : Reg) (a : Address) : (s.writeBack rn a).fsr = s.fsr := by unfold State.writeBack; split <;> simp
@[simp] theorem State.writeBack_far (s : State) (rn : Reg) (a : Address) : (s.writeBack rn a).far = s.far := by unfold State.writeBack; split <;> simp
@[simp] theorem State.writeBack_dcacheLock (s : State) (rn : Reg) (a : Address) : (s.writeBack rn a).dcacheLock = s.dcacheLock := by unfold State.writeBack; split <;> simp
@[simp] theorem State.writeBack_pending (s : State) (rn : Reg) (a : Address) : (s.writeBack rn a).pending = s.pending := by unfold State.writeBack; split <;> simp
@[simp] theorem State.writeBack_cpwait (s : State) (rn : Reg) (a : Address) : (s.writeBack rn a).cpwait = s.cpwait := by unfold State.writeBack; split <;> simp
@[simp] theorem State.writeBack_itlb (s : State) (rn : Reg) (a : Address) : (s.writeBack rn a).itlb = s.itlb := by unfold State.writeBack; split <;> simp
@[simp] theorem State.writeBack_dtlb (s : State) (rn : Reg) (a : Address) : (s.writeBack rn a).dtlb = s.dtlb := by unfold State.writeBack; split <;> simp
@[simp] theorem State.writeBack_mem (s : State) (rn : Reg) (a : Address) : (s.writeBack rn a).mem = s.mem := by unfold State.writeBack; split <;> simp
@[simp] theorem State.writeBack_stored (s : State) (rn : Reg) (a : Address) : (s.writeBack rn a).stored = s.stored := by unfold State.writeBack; split <;> simp
@[simp] theorem State.writeBack_dirty (s : State) (rn : Reg) (a : Address) : (s.writeBack rn a).dirty = s.dirty := by unfold State.writeBack; split <;> simp
@[simp] theorem State.writeBack_subWord (s : State) (rn : Reg) (a : Address) : (s.writeBack rn a).subWord = s.subWord := by unfold State.writeBack; split <;> simp
@[simp] theorem State.writeBack_owed (s : State) (rn : Reg) (a : Address) : (s.writeBack rn a).owed = s.owed := by unfold State.writeBack; split <;> simp
@[simp] theorem State.writeBack_env (s : State) (rn : Reg) (a : Address) : (s.writeBack rn a).env = s.env := by unfold State.writeBack; split <;> simp
@[simp] theorem State.writeBack_tick (s : State) (rn : Reg) (a : Address) : (s.writeBack rn a).tick = s.tick := by unfold State.writeBack; split <;> simp

/-! ### `s.takeException k l` -/

@[simp] theorem State.takeException_gpr (s : State) (k : Exception) (l : Word) : (s.takeException k l).gpr = s.gpr.set (bank k.mode Reg.lr) l := by cases k <;> rfl
@[simp] theorem State.takeException_pc (s : State) (k : Exception) (l : Word) : (s.takeException k l).pc = s.vectorBase + k.offset := by cases k <;> rfl
@[simp] theorem State.takeException_cpsr (s : State) (k : Exception) (l : Word) : (s.takeException k l).cpsr = k.cpsr s.cpsr := by cases k <;> rfl
@[simp] theorem State.takeException_spsrFiq (s : State) (k : Exception) (l : Word) : (s.takeException k l).spsrFiq = (if k = .fiq then s.cpsr else s.spsrFiq) := by cases k <;> rfl
@[simp] theorem State.takeException_spsrIrq (s : State) (k : Exception) (l : Word) : (s.takeException k l).spsrIrq = (if k = .irq then s.cpsr else s.spsrIrq) := by cases k <;> rfl
@[simp] theorem State.takeException_spsrSvc (s : State) (k : Exception) (l : Word) : (s.takeException k l).spsrSvc = (if k = .swi then s.cpsr else s.spsrSvc) := by cases k <;> rfl
@[simp] theorem State.takeException_spsrAbt (s : State) (k : Exception) (l : Word) : (s.takeException k l).spsrAbt = (if k = .prefetchAbort ∨ k = .dataAbort then s.cpsr else s.spsrAbt) := by cases k <;> rfl
@[simp] theorem State.takeException_spsrUnd (s : State) (k : Exception) (l : Word) : (s.takeException k l).spsrUnd = (if k = .undefined then s.cpsr else s.spsrUnd) := by cases k <;> rfl
@[simp] theorem State.takeException_acc0 (s : State) (k : Exception) (l : Word) : (s.takeException k l).acc0 = s.acc0 := by cases k <;> rfl
@[simp] theorem State.takeException_cp15 (s : State) (k : Exception) (l : Word) : (s.takeException k l).cp15 = s.cp15 := by cases k <;> rfl
@[simp] theorem State.takeException_eff (s : State) (k : Exception) (l : Word) : (s.takeException k l).eff = s.eff := by cases k <;> rfl
@[simp] theorem State.takeException_fsr (s : State) (k : Exception) (l : Word) : (s.takeException k l).fsr = s.fsr := by cases k <;> rfl
@[simp] theorem State.takeException_far (s : State) (k : Exception) (l : Word) : (s.takeException k l).far = s.far := by cases k <;> rfl
@[simp] theorem State.takeException_dcacheLock (s : State) (k : Exception) (l : Word) : (s.takeException k l).dcacheLock = s.dcacheLock := by cases k <;> rfl
@[simp] theorem State.takeException_pending (s : State) (k : Exception) (l : Word) : (s.takeException k l).pending = s.pending := by cases k <;> rfl
@[simp] theorem State.takeException_cpwait (s : State) (k : Exception) (l : Word) : (s.takeException k l).cpwait = .idle := by cases k <;> rfl
@[simp] theorem State.takeException_itlb (s : State) (k : Exception) (l : Word) : (s.takeException k l).itlb = s.itlb := by cases k <;> rfl
@[simp] theorem State.takeException_dtlb (s : State) (k : Exception) (l : Word) : (s.takeException k l).dtlb = s.dtlb := by cases k <;> rfl
@[simp] theorem State.takeException_mem (s : State) (k : Exception) (l : Word) : (s.takeException k l).mem = s.mem := by cases k <;> rfl
@[simp] theorem State.takeException_stored (s : State) (k : Exception) (l : Word) : (s.takeException k l).stored = s.stored := by cases k <;> rfl
@[simp] theorem State.takeException_dirty (s : State) (k : Exception) (l : Word) : (s.takeException k l).dirty = s.dirty := by cases k <;> rfl
@[simp] theorem State.takeException_subWord (s : State) (k : Exception) (l : Word) : (s.takeException k l).subWord = s.subWord := by cases k <;> rfl
@[simp] theorem State.takeException_owed (s : State) (k : Exception) (l : Word) : (s.takeException k l).owed = s.owed := by cases k <;> rfl
@[simp] theorem State.takeException_env (s : State) (k : Exception) (l : Word) : (s.takeException k l).env = s.env := by cases k <;> rfl
@[simp] theorem State.takeException_tick (s : State) (k : Exception) (l : Word) : (s.takeException k l).tick = s.tick := by cases k <;> rfl
@[simp] theorem State.takeException_pastTop (s : State) (k : Exception) (l : Word) : (s.takeException k l).pastTop = false := by cases k <;> rfl

end Sys2Proof.Machine
end

