-- ==== Sys2Proof/Laws/Registers.lean ====
section
/-!
SUPPORT. Registers: two registers of a mode never share a place, what a read gives after a write, and that the mode
and the control bits depend on the CPSR and on the registers in effect alone.
-/

namespace Sys2Proof.Machine

/-- Two registers of one mode other than R15 have two places (rule R21). -/
theorem bank_injective (m : Mode) {r q : Reg} (hr : r ≠ Reg.pc) (hq : q ≠ Reg.pc) (h : bank m r = bank m q) :
    r = q := by
  revert r q
  cases m <;> decide

/-- The mode depends on the CPSR alone. -/
theorem State.mode_congr {s t : State} (h : t.cpsr = s.cpsr) : t.mode = s.mode := by
  simp [State.mode, h]

@[simp] theorem State.mode_setReg (s : State) (r : Reg) (v : Word) : (s.setReg r v).mode = s.mode :=
  State.mode_congr (by simp)
@[simp] theorem State.mode_setBanked (s : State) (m : Mode) (r : Reg) (v : Word) :
    (s.setBanked m r v).mode = s.mode := rfl
@[simp] theorem State.mode_advance (s : State) : s.advance.mode = s.mode := rfl
@[simp] theorem State.mode_writeBack (s : State) (rn : Reg) (a : Address) : (s.writeBack rn a).mode = s.mode :=
  State.mode_congr (by simp)
@[simp] theorem State.mode_storeBytes (s : State) (p : Policy) (a : Nat) (bs : List Byte) :
    (s.storeBytes p a bs).mode = s.mode := rfl
@[simp] theorem State.mode_owe (s : State) (p : Policy) (l : Bool) : (s.owe p l).mode = s.mode := rfl
@[simp] theorem State.mode_noteSubWord (s : State) : s.noteSubWord.mode = s.mode := rfl
@[simp] theorem State.mode_issue (s : State) (e : Cp15Effect) : (s.issue e).mode = s.mode := rfl
@[simp] theorem State.mode_setTlb (s : State) (t : Side) (v : Tlb) : (s.setTlb t v).mode = s.mode :=
  State.mode_congr (by simp)

/-- A register number below R15 reads the current mode's place. -/
theorem State.reg_banked (s : State) {r : Reg} (h : r ≠ Reg.pc) : s.reg r = s.gpr[bank s.mode r] := by
  simp [State.reg, h]

/-- R15 reads as the instruction's address plus 8 (rule R24). -/
@[simp] theorem State.reg_pc (s : State) : s.reg Reg.pc = s.pc + 8 := by simp [State.reg]

/-- A register reads as what was written to it. -/
theorem State.reg_setReg_same (s : State) {r : Reg} (h : r ≠ Reg.pc) (v : Word) : (s.setReg r v).reg r = v := by
  simp [State.reg, State.setReg, h]

/-- A write of one register leaves every other one below R15 as it was. -/
theorem State.reg_setReg_other (s : State) {r q : Reg} (hq : q ≠ Reg.pc) (h : q ≠ r) (v : Word) :
    (s.setReg r v).reg q = s.reg q := by
  unfold State.setReg
  split
  · simp [State.reg, hq, State.branchTo, State.mode]
  · next hr =>
    have hb : bank s.mode r ≠ bank s.mode q := fun e => h (bank_injective s.mode hr hq e).symm
    have hn : ((bank s.mode r : Fin 30) : Nat) ≠ (bank s.mode q : Nat) := fun e => hb (Fin.ext e)
    simp only [State.reg, hq, if_false, State.mode_setBanked]
    simp only [State.setBanked_gpr]
    exact Vector.getElem_set_ne (by omega) (by omega) hn

/-- Advancing leaves every register below R15 as it was. -/
@[simp] theorem State.reg_advance (s : State) {q : Reg} (hq : q ≠ Reg.pc) : s.advance.reg q = s.reg q := by
  simp [State.reg, hq, State.mode]

/-- What a read gives depends on the places, the CPSR and the program counter alone. -/
theorem State.reg_congr {s t : State} (hg : t.gpr = s.gpr) (hc : t.cpsr = s.cpsr) (hp : t.pc = s.pc) (r : Reg) :
    t.reg r = s.reg r := by
  simp [State.reg, State.mode, hg, hc, hp]

end Sys2Proof.Machine
end

