-- ==== Sys2Proof/Laws/Translation.lean ====
section
/-!
SUPPORT. Translation and the TLBs: what a translation can change, which address bits it keeps, and that every TLB
operation keeps the order of locked entries.
-/

namespace Sys2Proof.Machine

/-! ## Tlb operations -/

@[simp] theorem Tlb.mapEntries_lockPtr (f : TlbEntry → TlbEntry) (t : Tlb) :
    (t.mapEntries f).lockPtr = t.lockPtr := rfl
@[simp] theorem Tlb.mapEntries_rrPtr (f : TlbEntry → TlbEntry) (t : Tlb) : (t.mapEntries f).rrPtr = t.rrPtr := rfl
@[simp] theorem Tlb.mapEntries_entries (f : TlbEntry → TlbEntry) (t : Tlb) (i : Fin 32) :
    (t.mapEntries f).entries[i] = f t.entries[i] := by
  simp [Tlb.mapEntries]

@[simp] theorem Tlb.fill_lockPtr (t : Tlb) (e : TlbEntry) : (t.fill e).lockPtr = t.lockPtr := rfl
@[simp] theorem Tlb.fill_rrPtr (t : Tlb) (e : TlbEntry) :
    (t.fill e).rrPtr = if t.rrPtr = 31 then t.lockPtr else t.rrPtr + 1 := rfl
@[simp] theorem Tlb.fill_entries (t : Tlb) (e : TlbEntry) (i : Fin 32) :
    (t.fill e).entries[i] = if t.rrPtr = i then { e with valid := true, locked := false } else t.entries[i] := by
  simp [Tlb.fill, Vector.getElem_set, Fin.ext_iff]

/-- A table walk's write keeps the order (rule R127). -/
theorem Tlb.Ordered.fill {t : Tlb} (h : t.Ordered) (e : TlbEntry) : (t.fill e).Ordered := by
  obtain ⟨h1, h2⟩ := h
  refine ⟨fun i => ?_, ?_⟩
  · rw [Tlb.fill_entries, Tlb.fill_lockPtr]
    split
    · next hi => subst hi; simp; exact h2
    · exact h1 i
  · rw [Tlb.fill_lockPtr, Tlb.fill_rrPtr]
    split
    · exact Fin.le_refl _
    · next hr =>
      have hlt : (t.rrPtr : Nat) < 31 := by
        have := t.rrPtr.isLt
        have : (t.rrPtr : Nat) ≠ 31 := fun e => hr (Fin.ext e)
        omega
      rw [Fin.le_def] at h2 ⊢
      rw [Fin.val_add]
      have : ((1 : Fin 32) : Nat) = 1 := rfl
      omega

/-- A lock operation keeps the order (rules R128, R129). -/
theorem Tlb.Ordered.lock {t : Tlb} (h : t.Ordered) (e : TlbEntry) : (t.lock e).Ordered := by
  obtain ⟨h1, h2⟩ := h
  unfold Tlb.lock
  split
  · next hl =>
    have hl' : (t.lockPtr : Nat) < 31 := hl
    have hv : ((t.lockPtr + 1 : Fin 32) : Nat) = (t.lockPtr : Nat) + 1 := by
      rw [Fin.val_add]
      have : ((1 : Fin 32) : Nat) = 1 := rfl
      omega
    refine ⟨fun i => ?_, ?_⟩
    · simp only [Fin.getElem_fin, Vector.getElem_set]
      split
      · next hi => simp only [Fin.lt_def, hv]; simp; omega
      · next hi =>
        have := h1 i
        simp only [Fin.getElem_fin] at this
        simp only [this, Fin.lt_def, hv, decide_eq_decide]
        omega
    · simp only [Fin.le_def, hv]
      have : ((31 : Fin 32) : Nat) = 31 := rfl
      omega
  · next hl =>
    have hl' : ¬ (t.lockPtr : Nat) < 31 := hl
    have h31 : ((31 : Fin 32) : Nat) = 31 := rfl
    refine ⟨fun i => ?_, h2⟩
    simp only [Fin.getElem_fin, Vector.getElem_set]
    split
    · next hi => simp only [Fin.lt_def]; simp; omega
    · exact h1 i

/-- Invalidating a TLB keeps the order: no locked bit changes (rule R121). -/
theorem Tlb.Ordered.invalidate {t : Tlb} (h : t.Ordered) : t.invalidate.Ordered :=
  ⟨fun i => by rw [Tlb.invalidate, Tlb.mapEntries_entries]; exact h.1 i, h.2⟩

/-- Invalidating an entry keeps the order: a locked entry stays locked (rule R122). -/
theorem Tlb.Ordered.invalidateEntry {t : Tlb} (h : t.Ordered) (mva : Word) : (t.invalidateEntry mva).Ordered :=
  ⟨fun i => by rw [Tlb.invalidateEntry, Tlb.mapEntries_entries]; exact h.1 i, h.2⟩

/-- Unlocking keeps the order: nothing is locked and the lock pointer is 0 (rule R252). -/
theorem Tlb.unlock_ordered (t : Tlb) : t.unlock.Ordered := by
  refine ⟨fun i => ?_, Fin.zero_le _⟩
  show (Tlb.mapEntries _ t).entries[i].locked = _
  rw [Tlb.mapEntries_entries]
  show false = decide (i < (0 : Fin 32))
  simp

@[simp] theorem State.setTlb_instruction (s : State) (v : Tlb) : (s.setTlb .instruction v).itlb = v := rfl
@[simp] theorem State.setTlb_data (s : State) (v : Tlb) : (s.setTlb .data v).dtlb = v := rfl

/-- A change of one TLB that keeps its order keeps the order of both. -/
theorem State.TlbsOrdered.setTlb {s : State} (h : s.TlbsOrdered) (t : Side) {v : Tlb} (hv : v.Ordered) :
    (s.setTlb t v).TlbsOrdered := by
  cases t
  · exact ⟨hv, h.2⟩
  · exact ⟨h.1, hv⟩

theorem State.TlbsOrdered.tlb {s : State} (h : s.TlbsOrdered) (t : Side) : (s.tlb t).Ordered := by
  cases t
  · exact h.1
  · exact h.2

/-! ## Translation -/

/-- What a passed check answers: the state given, and the entry's address and attributes. -/
theorem checked_ok {s f t : State} {e : TlbEntry} {mva pa : Word} {w : Bool} {a : Attributes}
    (h : checked s f e mva w = .ok t pa a) : t = f ∧ pa = e.physical mva ∧ a = e.attributes := by
  unfold checked at h
  split at h <;> simp_all

/-- Everything a translation can answer: with the MMU off the remapped address itself; else a TLB entry's, or a walk's,
which fills the TLB. -/
theorem translate_ok {side : Side} {w : Bool} {va pa : Word} {s t : State} {a : Attributes}
    (h : translate side w va s = .ok t pa a) :
    (s.mmuOn = false ∧ t = s ∧ pa = remap s.eff.pid va ∧ a = attributesOff side)
    ∨ (s.mmuOn = true ∧ ∃ e : TlbEntry, pa = e.physical (remap s.eff.pid va) ∧ a = e.attributes
        ∧ (t = s ∨ t = s.setTlb side ((s.tlb side).fill e))) := by
  unfold translate at h
  split at h
  · next hm =>
    refine .inr ⟨hm, ?_⟩
    simp only at h
    split at h
    · next e _ =>
      obtain ⟨rfl, hp, ha⟩ := checked_ok h
      exact ⟨e, hp, ha, .inl rfl⟩
    · split at h
      · cases h
      · next e _ =>
        obtain ⟨rfl, hp, ha⟩ := checked_ok h
        exact ⟨e, hp, ha, .inr rfl⟩
  · next hm =>
    injection h with h1 h2 h3
    exact .inl ⟨by simpa using hm, h1.symm, h2.symm, h3.symm⟩

/-- A translation changes nothing but the TLB it looks up. -/
theorem translate_state {side : Side} {w : Bool} {va pa : Word} {s t : State} {a : Attributes}
    (h : translate side w va s = .ok t pa a) : t = s ∨ ∃ e, t = s.setTlb side ((s.tlb side).fill e) := by
  rcases translate_ok h with ⟨_, rfl, _⟩ | ⟨_, e, _, _, rfl | rfl⟩
  · exact .inl rfl
  · exact .inl rfl
  · exact .inr ⟨e, rfl⟩

/-- The low ten bits of an address are kept: the smallest page is 1 Kbyte (rule R93). -/
theorem physical_low (e : TlbEntry) (mva : Word) {i : Nat} (hi : i < 10) :
    (e.physical mva).getLsbD i = mva.getLsbD i := by
  have hm : e.size.mask.getLsbD i = false := by
    rcases (by omega : i = 0 ∨ i = 1 ∨ i = 2 ∨ i = 3 ∨ i = 4 ∨ i = 5 ∨ i = 6 ∨ i = 7 ∨ i = 8 ∨ i = 9) with
      h | h | h | h | h | h | h | h | h | h <;> subst h <;> cases e.size <;> rfl
  simp only [TlbEntry.physical, BitVec.getLsbD_or, BitVec.getLsbD_and, BitVec.getLsbD_not, hm]
  simp [show i < 32 by omega]

theorem remap_low (pid va : Word) {i : Nat} (hi : i < 25) : (remap pid va).getLsbD i = va.getLsbD i := by
  unfold remap
  split
  · have hm : (0xFE000000#32).getLsbD i = false := by
      have : ∀ j : Fin 25, (0xFE000000#32).getLsbD j = false := by decide
      exact this ⟨i, hi⟩
    have hf : (pid &&& 0xFE000000).getLsbD i = false := by
      rw [BitVec.getLsbD_and]
      exact Bool.and_eq_false_imp.2 fun _ => hm
    rw [BitVec.getLsbD_or, hf, Bool.or_false]
  · rfl

theorem translate_low {side : Side} {w : Bool} {va pa : Word} {s t : State} {a : Attributes}
    (h : translate side w va s = .ok t pa a) {i : Nat} (hi : i < 10) : pa.getLsbD i = va.getLsbD i := by
  rcases translate_ok h with ⟨_, _, rfl, _⟩ | ⟨_, e, rfl, _⟩
  · exact remap_low _ _ (by omega)
  · rw [physical_low e _ hi, remap_low _ _ (by omega)]

theorem toNat_mod_four {x y : Word} (h : ∀ i, i < 2 → x.getLsbD i = y.getLsbD i) : x.toNat % 4 = y.toNat % 4 := by
  have e : x.extractLsb' 0 2 = y.extractLsb' 0 2 := by
    apply BitVec.eq_of_getLsbD_eq
    intro i hi
    simp only [BitVec.getLsbD_extractLsb', Nat.zero_add]
    rw [h i hi]
  have := congrArg BitVec.toNat e
  simpa using this

/-- A translated address is aligned as the address is. -/
theorem translate_mod_four {side : Side} {w : Bool} {va pa : Word} {s t : State} {a : Attributes}
    (h : translate side w va s = .ok t pa a) : pa.toNat % 4 = va.toNat % 4 :=
  toNat_mod_four fun _ hi => translate_low h (by omega)

end Sys2Proof.Machine
end

