-- ==== Sys2Proof/Laws/Access.lean ====
section
/-!
SUPPORT. Data accesses: everything a load, a store, a swap and a preload can do to the state.
-/

namespace Sys2Proof.Machine

/-! ## Res -/

theorem Res.bind_ok {α β : Type} {x : Res α} {f : α → Res β} {b : β} (h : x.bind f = .ok b) :
    ∃ a, x = .ok a ∧ f a = .ok b := by
  cases x with
  | ok a => exact ⟨a, rfl, h⟩
  | abort a va => cases h
  | fault e => cases h
  | refused r => cases h

/-- An instruction over an access ends in the access's state or in the data abort of the state it began in. -/
theorem Res.finish_next {s t : State} {x : Res State} (h : x.finish s = .next t) :
    x = .ok t ∨ ∃ a va, x = .abort a va ∧ t = s.takeDataAbort a va := by
  cases x with
  | ok u => exact .inl (by injection h with h; rw [h])
  | abort a va => exact .inr ⟨a, va, rfl, by injection h with h; exact h.symm⟩
  | fault e => cases h
  | refused r => cases h

/-! ## What an access can change -/

/-- What a data access can change: the data TLB, the aborts owed, memory and the three marks of its accesses. -/
def DataStep (s t : State) : Prop :=
  t = { s with dtlb := t.dtlb, owed := t.owed, mem := t.mem, stored := t.stored, dirty := t.dirty,
               subWord := t.subWord }

/-- What an access keeps of the state's invariants. -/
structure DataKeeps (s t : State) : Prop where
  step : DataStep s t
  canonical : s.MemoryCanonical → t.MemoryCanonical
  ordered : s.TlbsOrdered → t.TlbsOrdered

theorem DataKeeps.refl (s : State) : DataKeeps s s := ⟨rfl, id, id⟩

theorem DataKeeps.trans {s t u : State} (h : DataKeeps s t) (k : DataKeeps t u) : DataKeeps s u := by
  refine ⟨?_, fun m => k.canonical (h.canonical m), fun m => k.ordered (h.ordered m)⟩
  have a := h.step
  have b := k.step
  unfold DataStep at a b ⊢
  rw [a] at b
  exact b

/-- What an access leaves alone. -/
theorem DataKeeps.same {s t : State} (h : DataKeeps s t) :
    t.gpr = s.gpr ∧ t.pc = s.pc ∧ t.cpsr = s.cpsr ∧ t.spsrFiq = s.spsrFiq ∧ t.spsrIrq = s.spsrIrq
      ∧ t.spsrSvc = s.spsrSvc ∧ t.spsrAbt = s.spsrAbt ∧ t.spsrUnd = s.spsrUnd ∧ t.acc0 = s.acc0
      ∧ t.cp15 = s.cp15 ∧ t.eff = s.eff ∧ t.fsr = s.fsr ∧ t.far = s.far ∧ t.dcacheLock = s.dcacheLock
      ∧ t.pending = s.pending ∧ t.cpwait = s.cpwait ∧ t.itlb = s.itlb ∧ t.env = s.env ∧ t.tick = s.tick
      ∧ t.pastTop = s.pastTop := by
  have a := h.step
  unfold DataStep at a
  rw [a]
  simp

theorem DataKeeps.setTlb {s : State} {e : TlbEntry} : DataKeeps s (s.setTlb .data ((s.tlb .data).fill e)) :=
  ⟨rfl, id, fun h => h.setTlb .data ((h.tlb .data).fill e)⟩

theorem DataKeeps.owe (s : State) (p : Policy) (l : Bool) : DataKeeps s (s.owe p l) := ⟨rfl, id, id⟩

theorem DataKeeps.noteSubWord (s : State) : DataKeeps s s.noteSubWord := ⟨rfl, id, id⟩

theorem badBytes_length (tick a : Nat) (bs : List Byte) : (badBytes tick a bs).length = bs.length := by
  induction bs generalizing a with
  | nil => rfl
  | cons b rest ih => simp [badBytes, ih]

/-- A store inside the address space. -/
theorem DataKeeps.storeBytes (s : State) (p : Policy) {a : Nat} {bs : List Byte}
    (h : a + bs.length ≤ Memory.size) : DataKeeps s (s.storeBytes p a bs) := by
  refine ⟨rfl, fun m => ?_, id⟩
  unfold State.MemoryCanonical at m ⊢
  rw [State.storeBytes_mem]
  split
  · exact m
  · refine Memory.wf_writeBytes m _ ?_
    split
    · rw [badBytes_length]; exact h
    · exact h

/-! ## Translated accesses -/

/-- Everything a translated data access answers. -/
theorem dataTranslate_ok {w : Bool} {far va : Word} {s : State} {a : Access}
    (h : dataTranslate w far va s = .ok a) :
    ∃ x, translate .data w va s = .ok a.state a.pa x ∧ a.p = x.p
      ∧ dataPolicy x a.state.eff.auxControl = some a.policy := by
  unfold dataTranslate at h
  split at h
  · cases h
  · cases h
  · next t pa x ht =>
    split at h
    · cases h
    · next p hp =>
      injection h with h
      subst h
      exact ⟨x, ht, rfl, hp⟩

theorem dataTranslate_keeps {w : Bool} {far va : Word} {s : State} {a : Access}
    (h : dataTranslate w far va s = .ok a) : DataKeeps s a.state := by
  obtain ⟨x, hx, _⟩ := dataTranslate_ok h
  rcases translate_state hx with e | ⟨e, he⟩
  · rw [e]; exact DataKeeps.refl s
  · rw [he]; exact DataKeeps.setTlb

theorem dataTranslate_mod_four {w : Bool} {far va : Word} {s : State} {a : Access}
    (h : dataTranslate w far va s = .ok a) : a.pa.toNat % 4 = va.toNat % 4 := by
  obtain ⟨x, hx, _⟩ := dataTranslate_ok h
  exact translate_mod_four hx

/-- Four bytes at an aligned physical address lie inside the address space. -/
theorem word_fits {pa : Word} (h : pa.toNat % 4 = 0) : pa.toNat + 4 ≤ Memory.size := by
  have := pa.isLt
  unfold Memory.size
  omega

/-- With the MMU off a data access is made at the remapped address, stalling until complete (rules R43, R86). -/
theorem dataTranslate_off {w : Bool} {far va : Word} {s : State} (h : s.mmuOn = false) :
    dataTranslate w far va s = .ok ⟨s, remap s.eff.pid va, false, .stallUntilComplete⟩ := by
  simp [dataTranslate, translate, h, attributesOff, Attributes.off, dataPolicy]

/-- The word-aligned address below an address. -/
theorem wordAlign_toNat (va : Word) : (wordAlign va).toNat = va.toNat / 4 * 4 := by
  have h : wordAlign va = (va >>> 2) <<< 2 := by
    apply BitVec.eq_of_getLsbD_eq
    intro i hi
    have m : ∀ j : Fin 32, (0xFFFFFFFC#32).getLsbD j = decide (2 ≤ j.val) := by decide
    have m := m ⟨i, hi⟩
    simp only at m
    rw [wordAlign, BitVec.getLsbD_and, m, BitVec.getLsbD_shiftLeft, BitVec.getLsbD_ushiftRight]
    by_cases h : i < 2
    · simp [h]
    · simp [h, hi, show 2 + (i - 2) = i by omega, show 2 ≤ i by omega]
  rw [h, BitVec.toNat_shiftLeft, BitVec.toNat_ushiftRight, Nat.shiftLeft_eq, Nat.shiftRight_eq_div_pow]
  have := va.isLt
  omega

/-- A misaligned access with checking off answers nothing (rule R78). -/
theorem misalignedAccess_ne_ok {α : Type} {va : Word} {n : Nat} {x : α} : misalignedAccess va n ≠ .ok x := by
  unfold misalignedAccess
  split <;> exact fun h => by cases h

/-! ## Loads, stores, swaps -/

theorem loadWord_keeps {va : Word} {s t : State} {v : Word} (h : loadWord va s = .ok (t, v)) : DataKeeps s t := by
  unfold loadWord at h
  split at h
  · cases h
  · exact absurd h misalignedAccess_ne_ok
  · obtain ⟨a, ha, he⟩ := Res.bind_ok h
    injection he with he
    injection he with he _
    rw [← he]
    exact (dataTranslate_keeps ha).trans (DataKeeps.owe _ _ _)

theorem loadSignedHalf_keeps {va : Word} {s t : State} {v : Word} (h : loadSignedHalf va s = .ok (t, v)) :
    DataKeeps s t := by
  unfold loadSignedHalf at h
  split at h
  · cases h
  · exact absurd h misalignedAccess_ne_ok
  · obtain ⟨a, ha, he⟩ := Res.bind_ok h
    injection he with he
    injection he with he _
    rw [← he]
    exact ((dataTranslate_keeps ha).trans (DataKeeps.owe _ _ _)).trans (DataKeeps.noteSubWord _)

theorem loadDouble_keeps {va : Word} {s t : State} {v w : Word} (h : loadDouble va s = .ok (t, v, w)) :
    DataKeeps s t := by
  unfold loadDouble at h
  split at h
  · cases h
  · exact absurd h misalignedAccess_ne_ok
  · obtain ⟨a, ha, he⟩ := Res.bind_ok h
    injection he with he
    injection he with he _
    rw [← he]
    exact (dataTranslate_keeps ha).trans (DataKeeps.owe _ _ _)

theorem mod_four_of_aligned {w : Width} {va : Word} {s : State} (hw : w ≠ .half)
    (h : alignment w va s = .aligned) : va.toNat % 4 = 0 := by
  unfold alignment at h
  split at h
  · next hm =>
    cases w with
    | half => exact absurd rfl hw
    | word => exact hm
    | double => simp only [Width.bytes] at hm; omega
  · split at h
    · cases h
    · split at h <;> cases h

theorem storeWordAt_keeps {va v : Word} {s t : State} (h : storeWordAt va v s = .ok t) : DataKeeps s t := by
  unfold storeWordAt at h
  split at h
  · cases h
  · exact absurd h misalignedAccess_ne_ok
  · next hal =>
    obtain ⟨a, ha, he⟩ := Res.bind_ok h
    injection he with he
    rw [← he]
    refine (dataTranslate_keeps ha).trans (DataKeeps.trans ?_ (DataKeeps.owe _ _ _))
    refine DataKeeps.storeBytes a.state a.policy (word_fits ?_)
    rw [dataTranslate_mod_four ha]
    exact mod_four_of_aligned (by decide) hal

theorem storeDoubleAt_keeps {va v w : Word} {s t : State} (h : storeDoubleAt va v w s = .ok t) :
    DataKeeps s t := by
  unfold storeDoubleAt at h
  split at h
  · cases h
  · exact absurd h misalignedAccess_ne_ok
  · next hal =>
    obtain ⟨a, ha, he⟩ := Res.bind_ok h
    injection he with he
    rw [← he]
    have hm : a.pa.toNat % 4 = 0 := by
      rw [dataTranslate_mod_four ha]
      exact mod_four_of_aligned (by decide) hal
    refine (dataTranslate_keeps ha).trans (DataKeeps.trans ?_ (DataKeeps.owe _ _ _))
    refine (DataKeeps.storeBytes a.state a.policy (bs := bytesOfWord v) (word_fits hm)).trans ?_
    refine DataKeeps.storeBytes _ a.policy (word_fits ?_)
    rw [BitVec.toNat_add]
    have : (4 : Word).toNat = 4 := rfl
    omega

theorem swapWordAt_keeps {va v : Word} {s t : State} {r : Word} (h : swapWordAt va v s = .ok (t, r)) :
    DataKeeps s t := by
  unfold swapWordAt at h
  split at h
  · cases h
  · exact absurd h misalignedAccess_ne_ok
  · next hal =>
    obtain ⟨a, ha, he⟩ := Res.bind_ok h
    injection he with he
    injection he with he _
    rw [← he]
    refine (dataTranslate_keeps ha).trans (DataKeeps.trans ?_ (DataKeeps.owe _ _ _))
    refine DataKeeps.storeBytes a.state a.policy (word_fits ?_)
    rw [dataTranslate_mod_four ha]
    exact mod_four_of_aligned (by decide) hal

theorem swapByteAt_keeps {va v : Word} {s t : State} {r : Word} (h : swapByteAt va v s = .ok (t, r)) :
    DataKeeps s t := by
  obtain ⟨a, ha, he⟩ := Res.bind_ok h
  injection he with he
  injection he with he _
  rw [← he]
  refine (dataTranslate_keeps ha).trans
    ((DataKeeps.trans ?_ (DataKeeps.owe _ _ _)).trans (DataKeeps.noteSubWord _))
  refine DataKeeps.storeBytes a.state a.policy ?_
  have h1 : a.state.byteLane a.pa < 4294967296 := by
    unfold State.byteLane
    split <;> exact BitVec.isLt _
  simpa [Memory.size] using h1

theorem preload_keeps (s : State) (va : Word) : DataKeeps s (s.preload va) := by
  unfold State.preload
  split
  · split
    · next t pa x ht =>
      rcases translate_state ht with e | ⟨e, he⟩
      · rw [e]; exact DataKeeps.refl s
      · rw [he]; exact DataKeeps.setTlb
    · exact DataKeeps.refl s
    · exact DataKeeps.refl s
  · exact DataKeeps.refl s

end Sys2Proof.Machine
end

