-- ==== Sys2Proof/Laws/Bits.lean ====
section
/-!
SUPPORT. Arithmetic and bits of words: masks, low bits, byte lanes, signed bounds, shifts. Every later lemma cites
these instead of unfolding Machine/Bits.lean or Machine/Operands.lean.
-/

namespace Sys2Proof.Machine

/-! ## Masks -/

theorem mergeMask_bit (m old new : Word) (k : Nat) :
    (mergeMask m old new).getLsbD k = if m.getLsbD k then new.getLsbD k else old.getLsbD k := by
  unfold mergeMask
  simp only [BitVec.getLsbD_or, BitVec.getLsbD_and, BitVec.getLsbD_not]
  by_cases h : k < 32
  · cases hm : m.getLsbD k <;> simp [h]
  · have := BitVec.getLsbD_of_ge m k (by omega)
    have := BitVec.getLsbD_of_ge old k (by omega)
    simp [*]

theorem bitAt_bit (b : Bool) (i : Nat) {k : Nat} (hk : k < 32) : (bitAt b i).getLsbD k = (b && decide (k = i)) := by
  unfold bitAt
  cases b
  · simp
  · simp only [if_true, BitVec.getLsbD_shiftLeft, hk, decide_true, Bool.true_and]
    by_cases h : k = i
    · subst h; simp
    · by_cases h2 : k < i
      · simp [h, h2]
      · have e : (1#32).getLsbD (k - i) = false := by
          rw [BitVec.getLsbD_one]; simp; omega
        simp [h, h2, e]

/-- A merge through a mask without low bits leaves the low bits as they were. -/
theorem mergeMask_low {m : Word} {n : Nat} (h : ∀ k : Fin 32, k.val < n → m.getLsbD k = false) {old new : Word}
    {k : Nat} (hk : k < n) : (mergeMask m old new).getLsbD k = old.getLsbD k := by
  rw [mergeMask_bit]
  by_cases h2 : k < 32
  · rw [h ⟨k, h2⟩ hk]; simp
  · rw [BitVec.getLsbD_of_ge m k (by omega)]; simp

/-! ## Low bits and lanes -/

theorem append_toNat {n m : Nat} (x : BitVec n) (y : BitVec m) :
    (x ++ y).toNat = x.toNat * 2 ^ m + y.toNat := by
  rw [BitVec.toNat_append, ← Nat.shiftLeft_add_eq_or_of_lt y.isLt, Nat.shiftLeft_eq]

theorem low_two_zero (r : Word) : r.extractLsb' 0 2 = 0 ↔ r.toNat % 4 = 0 := by
  rw [← BitVec.toNat_inj]; simp

theorem low_two_two (r : Word) : r.extractLsb' 0 2 = 0b10 ↔ r.toNat % 4 = 2 := by
  rw [← BitVec.toNat_inj]; simp

theorem bit_zero (r : Word) : r.getLsbD 0 = false ↔ r.toNat % 2 = 0 := by
  rw [BitVec.getLsbD]; simp

/-- The address BX goes to: bit 0 cleared (rule R301). -/
theorem mask_even (v : Word) : (v &&& 0xFFFFFFFE).toNat = v.toNat / 2 * 2 := by
  have : v &&& (0xFFFFFFFE : Word) = (v >>> 1) <<< 1 := by
    apply BitVec.eq_of_getLsbD_eq
    intro i hi
    have : ∀ j : Fin 32, (0xFFFFFFFE : Word).getLsbD j = decide (j.val ≠ 0) := by decide
    have e := this ⟨i, hi⟩
    simp only at e
    rw [BitVec.getLsbD_and, e, BitVec.getLsbD_shiftLeft, BitVec.getLsbD_ushiftRight]
    by_cases h : i = 0
    · subst h; simp
    · have : 1 + (i - 1) = i := by omega
      simp [h, hi, this]
  show (v &&& (0xFFFFFFFE : Word)).toNat = _
  rw [this, BitVec.toNat_shiftLeft, BitVec.toNat_ushiftRight, Nat.shiftLeft_eq, Nat.shiftRight_eq_div_pow]
  have := v.isLt
  omega

/-- Halfword lanes: halfword address XOR 2 (rule R72). -/
theorem xor_two (p : Word) : (p ^^^ 2#32).toNat = if p.toNat / 2 % 2 = 1 then p.toNat - 2 else p.toNat + 2 := by
  rw [BitVec.toNat_xor]
  show p.toNat ^^^ 2 = _
  have h1 : (p.toNat ^^^ 2) / 4 = p.toNat / 4 := by
    have := Nat.xor_div_two_pow (a := p.toNat) (b := 2) (n := 2); simpa using this
  have h2 : (p.toNat ^^^ 2) % 4 = (p.toNat % 4) ^^^ 2 := by
    have := Nat.xor_mod_two_pow (a := p.toNat) (b := 2) (n := 2); simpa using this
  have h3 : (p.toNat % 4) ^^^ 2 = if p.toNat % 4 / 2 = 1 then p.toNat % 4 - 2 else p.toNat % 4 + 2 := by
    have : p.toNat % 4 < 4 := by omega
    generalize p.toNat % 4 = r at *
    interval_cases r <;> rfl
  split at h3 <;> split <;> omega

/-- Byte lanes: byte address XOR 3 (rule R72). -/
theorem xor_three (p : Word) : (p ^^^ 3#32).toNat = p.toNat / 4 * 4 + (3 - p.toNat % 4) := by
  rw [BitVec.toNat_xor]
  show p.toNat ^^^ 3 = _
  have h1 : (p.toNat ^^^ 3) / 4 = p.toNat / 4 := by
    have := Nat.xor_div_two_pow (a := p.toNat) (b := 3) (n := 2); simpa using this
  have h2 : (p.toNat ^^^ 3) % 4 = (p.toNat % 4) ^^^ 3 := by
    have := Nat.xor_mod_two_pow (a := p.toNat) (b := 3) (n := 2); simpa using this
  have h3 : (p.toNat % 4) ^^^ 3 = 3 - p.toNat % 4 := by
    have : p.toNat % 4 < 4 := by omega
    generalize p.toNat % 4 = r at *
    interval_cases r <;> rfl
  omega

/-! ## Signed arithmetic -/

theorem fits32_false_iff (x : Int) : (!fits32 x) = true ↔ x < -2147483648 ∨ 2147483647 < x := by
  unfold fits32 minInt32 maxInt32
  rw [Bool.not_eq_true', Bool.and_eq_false_iff, decide_eq_false_iff_not, decide_eq_false_iff_not]
  omega

theorem sat32_eq (e : Int) : sat32 e = max (-2147483648) (min 2147483647 e) := by
  unfold sat32 minInt32 maxInt32
  split
  · omega
  · split <;> omega

theorem halfOf_bounds (h : Half) (w : Word) : -32768 ≤ (halfOf h w).toInt ∧ (halfOf h w).toInt ≤ 32767 := by
  have a := BitVec.le_toInt (halfOf h w)
  have b := BitVec.toInt_lt (x := halfOf h w)
  simp at a b
  omega

theorem toInt_bounds (w : Word) : -2147483648 ≤ w.toInt ∧ w.toInt ≤ 2147483647 := by
  have a := BitVec.le_toInt w
  have b := BitVec.toInt_lt (x := w)
  simp at a b
  omega

theorem halfProduct_bounds (x y : Half) (v w : Word) :
    -1073709056 ≤ halfProduct x v y w ∧ halfProduct x v y w ≤ 1073741824 := by
  obtain ⟨a1, a2⟩ := halfOf_bounds x v
  obtain ⟨b1, b2⟩ := halfOf_bounds y w
  unfold halfProduct
  constructor <;> nlinarith

theorem wordHalfProduct_bounds (y : Half) (v w : Word) :
    -70368744177664 ≤ wordHalfProduct v y w ∧ wordHalfProduct v y w ≤ 70368744177664 := by
  obtain ⟨a1, a2⟩ := toInt_bounds v
  obtain ⟨b1, b2⟩ := halfOf_bounds y w
  unfold wordHalfProduct
  constructor <;> nlinarith

theorem ofInt_toNat (t : Int) : ((BitVec.ofInt 32 t).toNat : Int) = t % 4294967296 := by
  rw [BitVec.toNat_ofInt]; omega

theorem ofInt_toInt {t : Int} (h1 : -2147483648 ≤ t) (h2 : t ≤ 2147483647) : (BitVec.ofInt 32 t).toInt = t := by
  rw [BitVec.toInt_ofInt, Int.bmod_def]; split <;> omega

/-- The word offset of a branch, multiplied by four (rule R151). -/
theorem branchOffset_toNat (imm : BitVec 24) : ((branchOffset imm).toNat : Int) = (4 * imm.toInt) % 4294967296 := by
  unfold branchOffset
  have h : (imm.signExtend 32).toInt = imm.toInt := by rw [BitVec.toInt_signExtend_of_le (by omega)]
  rw [← h]
  generalize imm.signExtend 32 = w
  have h1 := BitVec.toInt_eq_toNat_cond w
  have := w.isLt
  rw [BitVec.toNat_shiftLeft, Nat.shiftLeft_eq]
  split at h1 <;> omega

/-! ## Shifts, bit by bit (rule R148) -/

theorem rotateRight_bit (w : Word) (n : Nat) {i : Nat} (hi : i < 32) :
    (w.rotateRight n).getLsbD i = w.getLsbD ((i + n) % 32) := by
  rw [BitVec.getLsbD_rotateRight]
  by_cases h : i < 32 - n % 32
  · rw [decide_eq_true h, cond_true]; congr 1; omega
  · rw [decide_eq_false h, cond_false]
    simp only [hi, decide_true, Bool.true_and]
    congr 1
    omega

theorem sshiftRight_bit (w : Word) (n : Nat) {i : Nat} (hi : i < 32) :
    (w.sshiftRight n).getLsbD i = if i + n < 32 then w.getLsbD (i + n) else w.getLsbD 31 := by
  rw [BitVec.getLsbD_sshiftRight, BitVec.msb_eq_getLsbD_last, Nat.add_comm n i]
  have : decide (32 ≤ i) = false := by simp; omega
  rw [this]; simp

theorem shiftLeft_bit (w : Word) (n : Nat) {i : Nat} (hi : i < 32) :
    (w <<< n).getLsbD i = (decide (n ≤ i) && w.getLsbD (i - n)) := by
  rw [BitVec.getLsbD_shiftLeft]
  by_cases h : i < n
  · have : ¬ n ≤ i := by omega
    simp [h, this]
  · have : n ≤ i := by omega
    simp [h, this, hi]

/-! ## Leading zeros (rule R304) -/

/-- The count of leading zeros below a position: 32 for zero, else 31 minus the highest bit set. -/
theorem leadingZerosBelow_spec (w : Word) (n : Nat) (hn : n ≤ 32) (h : ∀ j, n ≤ j → w.getLsbD j = false) :
    (w = 0 → leadingZerosBelow n w = 32)
      ∧ ∀ k, w.getLsbD k = true → (∀ j, k < j → w.getLsbD j = false) → leadingZerosBelow n w = 31 - k := by
  induction n with
  | zero =>
    refine ⟨fun _ => rfl, fun k hk _ => ?_⟩
    rw [h k (by omega)] at hk
    cases hk
  | succ n ih =>
    unfold leadingZerosBelow
    by_cases hb : w.getLsbD n = true
    · rw [if_pos hb]
      refine ⟨fun h0 => by rw [h0] at hb; simp at hb, fun k hk hj => ?_⟩
      have : k = n := by
        rcases Nat.lt_trichotomy k n with h' | h' | h'
        · rw [hj n h'] at hb; cases hb
        · exact h'
        · rw [h k (by omega)] at hk; cases hk
      rw [this]
    · rw [if_neg hb]
      refine ih (by omega) (fun j hj => ?_)
      rcases Nat.eq_or_lt_of_le hj with rfl | h'
      · simpa using hb
      · exact h j h'

end Sys2Proof.Machine
end

