-- ==== Sys2Proof/Laws/Decode.lean ====
section
/-!
SUPPORT. Fields of an instruction word as arithmetic of its value, so that a decoder's tests become facts about sums
of shifted fields; and the codes of conditions, shifts, indexing forms and halves read back.
-/

namespace Sys2Proof

theorem field_toNat (w : Word) (lo len : Nat) : (field w lo len).toNat = w.toNat / 2 ^ lo % 2 ^ len := by
  simp [field, BitVec.extractLsb'_toNat, Nat.shiftRight_eq_div_pow]

theorem field_eq_iff (w : Word) (lo len : Nat) (v : BitVec len) :
    field w lo len = v ↔ w.toNat / 2 ^ lo % 2 ^ len = v.toNat := by
  rw [← BitVec.toNat_inj, field_toNat]

theorem flag_iff (w : Word) (i : Nat) : flag w i = true ↔ w.toNat / 2 ^ i % 2 = 1 := by
  rw [flag, BitVec.getLsbD, Nat.testBit_eq_decide_div_mod_eq]; simp

theorem flag_eq_iff (w : Word) (i : Nat) (b : Bool) : flag w i = b ↔ w.toNat / 2 ^ i % 2 = b.toNat := by
  cases b
  · rw [← Bool.not_eq_true, flag_iff]; simp
  · exact flag_iff w i

@[simp] theorem Cond.ofBits_toBits (c : Cond) : Cond.ofBits c.toBits = some c := by cases c <;> rfl
theorem Cond.toBits_lt (c : Cond) : c.toBits.toNat < 15 := by cases c <;> decide
@[simp] theorem Shift.ofBits_toBits (sh : Shift) : Shift.ofBits sh.toBits = sh := by cases sh <;> rfl
@[simp] theorem Index.ofBits_bits (m : Index) : Index.ofBits m.p m.w = some m := by cases m <;> rfl
@[simp] theorem Half.ofBit_toBit (h : Half) : Half.ofBit h.toBit = h := by cases h <;> rfl

end Sys2Proof
end

