-- ==== Sys2Proof/Laws/Status.lean ====
section
/-!
SUPPORT. The status registers bit by bit: what each flag computation, MSR's field mask, taking an exception, BX and the
FSR of an abort write, and what they leave.
-/

namespace Sys2Proof.Machine

/-- The mode depends on the five low bits alone. -/
theorem psrMode_of_low {a b : Word} (h : ∀ j, j < 5 → a.getLsbD j = b.getLsbD j) : psrMode a = psrMode b := by
  unfold psrMode
  congr 1
  apply BitVec.eq_of_getLsbD_eq
  intro i hi
  simp only [BitVec.getLsbD_extractLsb', Nat.zero_add, hi, decide_true, Bool.true_and]
  exact h i hi

theorem State.mode_of_low {s t : State} (h : ∀ j, j < 5 → t.cpsr.getLsbD j = s.cpsr.getLsbD j) : t.mode = s.mode := by
  unfold State.mode
  rw [psrMode_of_low h]

/-! ## Flags (rule R27) -/

theorem withNZ_low (c r : Word) {j : Nat} (h : j < 30) : (withNZ c r).getLsbD j = c.getLsbD j :=
  mergeMask_low (by decide) h
theorem withNZC_low (c r : Word) (k : Bool) {j : Nat} (h : j < 29) : (withNZC c r k).getLsbD j = c.getLsbD j :=
  mergeMask_low (by decide) h
theorem withNZCV_low (c r : Word) (k o : Bool) {j : Nat} (h : j < 28) :
    (withNZCV c r k o).getLsbD j = c.getLsbD j :=
  mergeMask_low (by decide) h

theorem withNZ_bits (c r : Word) :
    (withNZ c r).getLsbD 31 = r.getLsbD 31 ∧ (withNZ c r).getLsbD 30 = decide (r = 0) := by
  refine ⟨?_, ?_⟩ <;>
  · unfold withNZ
    rw [mergeMask_bit, if_pos (by decide)]
    simp only [BitVec.getLsbD_or]
    rw [bitAt_bit _ _ (by omega), bitAt_bit _ _ (by omega)]
    simp

theorem withNZC_bits (c r : Word) (k : Bool) :
    (withNZC c r k).getLsbD 31 = r.getLsbD 31 ∧ (withNZC c r k).getLsbD 30 = decide (r = 0)
      ∧ (withNZC c r k).getLsbD 29 = k := by
  refine ⟨?_, ?_, ?_⟩ <;>
  · unfold withNZC
    rw [mergeMask_bit, if_pos (by decide)]
    simp only [BitVec.getLsbD_or]
    rw [bitAt_bit _ _ (by omega), bitAt_bit _ _ (by omega), bitAt_bit _ _ (by omega)]
    simp

theorem withNZCV_bits (c r : Word) (k o : Bool) :
    (withNZCV c r k o).getLsbD 31 = r.getLsbD 31 ∧ (withNZCV c r k o).getLsbD 30 = decide (r = 0)
      ∧ (withNZCV c r k o).getLsbD 29 = k ∧ (withNZCV c r k o).getLsbD 28 = o := by
  refine ⟨?_, ?_, ?_, ?_⟩ <;>
  · unfold withNZCV
    rw [mergeMask_bit, if_pos (by decide)]
    simp only [BitVec.getLsbD_or]
    rw [bitAt_bit _ _ (by omega), bitAt_bit _ _ (by omega), bitAt_bit _ _ (by omega), bitAt_bit _ _ (by omega)]
    simp

@[simp] theorem psrMode_withNZ (c r : Word) : psrMode (withNZ c r) = psrMode c :=
  psrMode_of_low fun _ hj => withNZ_low _ _ (by omega)
@[simp] theorem psrMode_withNZC (c r : Word) (k : Bool) : psrMode (withNZC c r k) = psrMode c :=
  psrMode_of_low fun _ hj => withNZC_low _ _ _ (by omega)
@[simp] theorem psrMode_withNZCV (c r : Word) (k o : Bool) : psrMode (withNZCV c r k o) = psrMode c :=
  psrMode_of_low fun _ hj => withNZCV_low _ _ _ _ (by omega)

/-- Q and nothing else (rule R27). -/
theorem withQ_bit (c : Word) (b : Bool) (k : Nat) : (withQ c b).getLsbD k = (c.getLsbD k || (b && decide (k = 27))) := by
  unfold withQ
  cases b
  · simp
  · simp only [if_true, BitVec.getLsbD_or, Bool.true_and]
    congr 1
    by_cases h : k < 32
    · have : ∀ j : Fin 32, (0x08000000 : Word).getLsbD j = decide (j.val = 27) := by decide
      exact this ⟨k, h⟩
    · rw [BitVec.getLsbD_of_ge _ _ (by omega)]; simp; omega

@[simp] theorem psrMode_withQ (c : Word) (b : Bool) : psrMode (withQ c b) = psrMode c :=
  psrMode_of_low fun j hj => by rw [withQ_bit]; simp; omega

/-! ## MSR (rule R307) -/

theorem fieldMask_bit (mask : BitVec 4) {k : Nat} (hk : k < 32) : (fieldMask mask).getLsbD k = mask.getLsbD (k / 8) := by
  have : ∀ m : BitVec 4, ∀ k : Fin 32, (fieldMask m).getLsbD k = m.getLsbD (k.val / 8) := by decide
  exact this mask ⟨k, hk⟩

theorem State.mergedCpsr_bit (s : State) (mask : BitVec 4) (v : Word) {k : Nat} (hk : k < 32) :
    (s.mergedCpsr mask v).getLsbD k
      = if mask.getLsbD (k / 8) = true ∧ (s.privileged = true ∨ 24 ≤ k) then v.getLsbD k else s.cpsr.getLsbD k := by
  unfold State.mergedCpsr
  rw [mergeMask_bit, fieldMask_bit _ hk]
  cases h : s.privileged
  · have : ∀ m : BitVec 4, ∀ k : Fin 32,
        (m &&& 8).getLsbD (k.val / 8) = (m.getLsbD (k.val / 8) && decide (24 ≤ k.val)) := by decide
    have e := this mask ⟨k, hk⟩
    simp only at e
    show (if (mask &&& 8).getLsbD (k / 8) = true then _ else _) = _
    rw [e]
    simp
  · simp

/-! ## T (rules R301, R303) -/

theorem bit_five (k : Nat) : (0x20 : Word).getLsbD k = decide (k = 5) := by
  by_cases h : k < 32
  · have : ∀ j : Fin 32, (0x20 : Word).getLsbD j = decide (j.val = 5) := by decide
    exact this ⟨k, h⟩
  · rw [BitVec.getLsbD_of_ge _ _ (by omega)]; simp; omega

theorem exchange_bit (c : Word) (b : Bool) (k : Nat) :
    (mergeMask 0x20 c (bitAt b 5)).getLsbD k = if k = 5 then b else c.getLsbD k := by
  rw [mergeMask_bit, bit_five]
  by_cases h : k = 5
  · subst h; rw [bitAt_bit _ _ (by omega)]; simp
  · simp [h]

/-! ## Taking an exception (rule R330) -/

theorem Exception.cpsr_bit (k : Exception) (c : Word) (j : Nat) :
    (k.cpsr c).getLsbD j = ((c.getLsbD j && (0xFFFFFF40 : Word).getLsbD j) || (0x80 : Word).getLsbD j
      || (decide (k = .fiq) && (0x40 : Word).getLsbD j) || (k.mode.toBits.setWidth 32).getLsbD j) := by
  simp only [Exception.cpsr, BitVec.getLsbD_or, BitVec.getLsbD_and]
  by_cases h : k = .fiq <;> simp [h]

@[simp] theorem psrMode_exception (k : Exception) (c : Word) : psrMode (k.cpsr c) = some k.mode := by
  have e : (k.cpsr c).extractLsb' 0 5 = k.mode.toBits := by
    apply BitVec.eq_of_getLsbD_eq
    intro i hi
    rw [BitVec.getLsbD_extractLsb', Nat.zero_add, Exception.cpsr_bit]
    have h1 : ∀ j : Fin 5, (0xFFFFFF40 : Word).getLsbD j = false ∧ (0x80 : Word).getLsbD j = false
        ∧ (0x40 : Word).getLsbD j = false := by decide
    obtain ⟨a, b, d⟩ := h1 ⟨i, hi⟩
    simp only at a b d
    rw [a, b, d]
    simp [hi]
    omega
  unfold psrMode
  rw [e]
  cases k <;> rfl

/-! ## The FSR of an abort (rules R38, R364) -/

theorem abortFsr_bit (st : BitVec 5) (d : Option (BitVec 4)) (tick : Nat) {k : Nat} (hk : k < 32) :
    (abortFsr st d tick).getLsbD k
      = ((((Config.fsrUnstated tick).getLsbD k && (0xFFFFFB00 : Word).getLsbD k) || (st.getLsbD 4 && decide (k = 10))
        || (decide (4 ≤ k) && (d.getD (Config.invalidDomain tick)).getLsbD (k - 4)))
        || (decide (k < 4) && st.getLsbD k)) := by
  unfold abortFsr
  simp only [BitVec.getLsbD_or, BitVec.getLsbD_and, bitAt_bit _ _ hk, BitVec.getLsbD_shiftLeft,
    BitVec.getLsbD_setWidth, BitVec.getLsbD_extractLsb', hk]
  by_cases h : 4 ≤ k
  · simp [h, show ¬ k < 4 by omega, show k - 4 < 32 by omega]
  · simp [h, show k < 4 by omega]

theorem unstated_mask (k : Fin 32) : (0xFFFFFB00 : Word).getLsbD k = decide (k.val ≠ 10 ∧ 8 ≤ k.val) := by
  revert k; decide

@[simp] theorem fsrStatus_abortFsr (st : BitVec 5) (d : Option (BitVec 4)) (tick : Nat) :
    fsrStatus (abortFsr st d tick) = st := by
  unfold fsrStatus
  apply BitVec.eq_of_getLsbD_eq
  intro i hi
  simp only [BitVec.getLsbD_append, BitVec.getLsbD_extractLsb']
  by_cases h : i < 4
  · simp only [h, if_true, Nat.zero_add, decide_true, Bool.true_and]
    have := unstated_mask ⟨i, by omega⟩
    simp only at this
    rw [abortFsr_bit _ _ _ (by omega), this]
    simp [h, show ¬ i = 10 by omega, show ¬ 8 ≤ i by omega, show ¬ 4 ≤ i by omega]
  · have : i = 4 := by omega
    subst this
    have := unstated_mask ⟨10, by omega⟩
    simp only at this
    simp only [show ¬ (4 : Nat) < 4 by omega, if_false, Nat.sub_self, Nat.add_zero]
    rw [abortFsr_bit _ _ _ (by omega), this]
    simp

@[simp] theorem fsrDomain_abortFsr (st : BitVec 5) (d : BitVec 4) (tick : Nat) :
    fsrDomain (abortFsr st (some d) tick) = d := by
  unfold fsrDomain
  apply BitVec.eq_of_getLsbD_eq
  intro i hi
  simp only [BitVec.getLsbD_extractLsb', hi, decide_true, Bool.true_and]
  have := unstated_mask ⟨4 + i, by omega⟩
  simp only at this
  rw [abortFsr_bit _ _ _ (by omega), this]
  simp [show ¬ 4 + i = 10 by omega, show ¬ 8 ≤ 4 + i by omega, show ¬ 4 + i < 4 by omega]

end Sys2Proof.Machine
end

