-- ==== Sys2Proof/Laws/Execution.lean ====
section
/-!
SUPPORT. What the shared operations of the meanings do: the two checks, frames, results written to a register, the
accumulator, transfers of control, and a load, store or swap that completes.
-/

namespace Sys2Proof.Machine

/-! ## The checks a meaning starts with -/

theorem conditional_true {c : Cond} {s : State} {b : Answer} (h : conditionPassed c s = true) :
    conditional c s b = b := by
  simp [conditional, h]

theorem conditional_false {c : Cond} {s : State} {b : Answer} (h : conditionPassed c s = false) :
    conditional c s b = .next s.advance := by
  simp [conditional, h]

theorem predictably_true {i : Instr} {b : Answer} (h : i.predictable = true) : predictably i b = b := by
  simp [predictably, h]

theorem predictably_false {i : Instr} {b : Answer} (h : i.predictable = false) :
    predictably i b = .refused .unpredictableRegisters := by
  simp [predictably, h]

theorem accumulatorGate_open {s : State} {b : Answer} (h : s.eff.cpar.getLsbD 0 = true) : accumulatorGate s b = b := by
  simp [accumulatorGate, h]

theorem accumulatorGate_shut {s : State} {b : Answer} (h : s.eff.cpar.getLsbD 0 = false) :
    accumulatorGate s b = .next s.takeUndefined := by
  rw [accumulatorGate, if_neg (by rw [h]; decide)]

theorem privilegedAccess_true {s : State} {b : Answer} (h : s.privileged = true) : privilegedAccess s b = b := by
  simp [privilegedAccess, h]

theorem privilegedAccess_false {s : State} {b : Answer} (h : s.privileged = false) :
    privilegedAccess s b = .next s.takeUndefined := by
  simp [privilegedAccess, h]

theorem noneIsPc_two {a b : Reg} (h1 : a ≠ Reg.pc) (h2 : b ≠ Reg.pc) : Reg.noneIsPc [a, b] = true := by
  simp [Reg.noneIsPc, h1, h2]
theorem noneIsPc_three {a b c : Reg} (h1 : a ≠ Reg.pc) (h2 : b ≠ Reg.pc) (h3 : c ≠ Reg.pc) :
    Reg.noneIsPc [a, b, c] = true := by
  simp [Reg.noneIsPc, h1, h2, h3]
theorem noneIsPc_four {a b c d : Reg} (h1 : a ≠ Reg.pc) (h2 : b ≠ Reg.pc) (h3 : c ≠ Reg.pc) (h4 : d ≠ Reg.pc) :
    Reg.noneIsPc [a, b, c, d] = true := by
  simp [Reg.noneIsPc, h1, h2, h3, h4]

/-! ## Frames -/

theorem SystemKept.of {s t : State}
    (h : t.spsrFiq = s.spsrFiq ∧ t.spsrIrq = s.spsrIrq ∧ t.spsrSvc = s.spsrSvc ∧ t.spsrAbt = s.spsrAbt
      ∧ t.spsrUnd = s.spsrUnd ∧ t.cp15 = s.cp15 ∧ t.eff = s.eff ∧ t.fsr = s.fsr ∧ t.far = s.far
      ∧ t.dcacheLock = s.dcacheLock ∧ t.pending = s.pending ∧ t.cpwait = s.cpwait ∧ t.itlb = s.itlb
      ∧ t.env = s.env ∧ t.tick = s.tick) : SystemKept s t := by
  obtain ⟨h1, h2, h3, h4, h5, h6, h7, h8, h9, h10, h11, h12, h13, h14, h15⟩ := h
  exact ⟨fun m => by cases m <;> simp [State.spsr, *], h6, h7, h8, h9, h10, h11, h12, h13, h14, h15⟩

theorem DataKept.of {s t : State}
    (h : t.mem = s.mem ∧ t.dtlb = s.dtlb ∧ t.owed = s.owed ∧ t.stored = s.stored ∧ t.dirty = s.dirty
      ∧ t.subWord = s.subWord) :
    DataKept s t := by
  obtain ⟨h1, h2, h3, h4, h5, h6⟩ := h
  exact ⟨fun a => by rw [h1], h2, h3, h4, h5, h6⟩

theorem MemoryKeptBut.of_mem {first n : Nat} {s t : State} (h : t.mem = s.mem) : MemoryKeptBut first n s t :=
  fun a _ => by rw [h]

theorem RegistersKeptBut.none {rs : List Reg} {s t : State} (h : t.gpr = s.gpr) : RegistersKeptBut rs s t :=
  fun k _ => by rw [h]

theorem RegistersKeptBut.one {s t : State} {rd : Reg} {v : Word} (h : t.gpr = s.gpr.set (bank s.mode rd) v) :
    RegistersKeptBut [rd] s t := by
  intro k hk
  have := hk rd (by simp)
  rw [h]
  show (s.gpr.set _ v)[(k : Nat)] = s.gpr[(k : Nat)]
  rw [Vector.getElem_set_ne]
  intro e
  exact this (Fin.ext e.symm)

theorem RegistersKeptBut.two {s t : State} {r1 r2 : Reg} {v1 v2 : Word}
    (h : t.gpr = (s.gpr.set (bank s.mode r1) v1).set (bank s.mode r2) v2) : RegistersKeptBut [r2, r1] s t := by
  intro k hk
  have h1 := hk r1 (by simp)
  have h2 := hk r2 (by simp)
  rw [h]
  show ((s.gpr.set _ v1).set _ v2)[(k : Nat)] = s.gpr[(k : Nat)]
  rw [Vector.getElem_set_ne, Vector.getElem_set_ne]
  · intro e; exact h1 (Fin.ext e.symm)
  · intro e; exact h2 (Fin.ext e.symm)

theorem State.setReg_eq {s : State} {rd : Reg} (h : rd ≠ Reg.pc) (v : Word) :
    s.setReg rd v = s.setBanked s.mode rd v := by
  simp [State.setReg, h]

/-- A register reads as what its place holds. -/
theorem State.reg_of {t : State} {g : Vector Word 30} {m : Mode} {r : Reg} {v : Word} (hr : r ≠ Reg.pc)
    (h : t.gpr = g.set (bank m r) v) (hm : t.mode = m) : t.reg r = v := by
  rw [State.reg_banked _ hr]
  subst hm
  rw [h]
  simp

theorem RegisterFrame.setReg (s : State) {rd : Reg} (h : rd ≠ Reg.pc) (v : Word) :
    RegisterFrame [rd] s (s.setReg rd v).advance := by
  rw [State.setReg_eq h]
  exact ⟨⟨.one (by simp; rfl), .of (by simp), .of (by simp)⟩, by simp⟩

theorem RegisterFrame.setReg_setCpsr (s : State) {rd : Reg} (h : rd ≠ Reg.pc) (v c : Word) :
    RegisterFrame [rd] s ((s.setReg rd v).setCpsr c).advance := by
  rw [State.setReg_eq h]
  exact ⟨⟨.one (by simp; rfl), .of (by simp), .of (by simp)⟩, by simp⟩

theorem AccumulatorFrame.accumulator (s : State) (a : Acc) : AccumulatorFrame [] s { s with acc0 := a }.advance :=
  ⟨.none (by simp), .of (by simp), .of (by simp)⟩

theorem Advanced.setReg (s : State) {rd : Reg} (h : rd ≠ Reg.pc) (v : Word) : Advanced s (s.setReg rd v).advance := by
  rw [State.setReg_eq h]
  exact ⟨rfl, rfl⟩

theorem Advanced.setReg_setCpsr (s : State) {rd : Reg} (h : rd ≠ Reg.pc) (v c : Word) :
    Advanced s ((s.setReg rd v).setCpsr c).advance := by
  rw [State.setReg_eq h]
  exact ⟨rfl, rfl⟩

/-! ## Results -/

theorem State.reg_setReg_setCpsr (s : State) {rd : Reg} (h : rd ≠ Reg.pc) (v : Word) {c : Word}
    (hm : psrMode c = psrMode s.cpsr) : ((s.setReg rd v).setCpsr c).advance.reg rd = v := by
  rw [State.reg_banked _ h, State.setReg_eq h]
  have : ((s.setBanked s.mode rd v).setCpsr c).advance.mode = s.mode := by simp [State.mode, hm]
  simp [this]

/-- Everything a data-processing result below R15 does. -/
theorem State.dataResult_spec {s : State} {f : Bool} {rd : Reg} {r cpsr : Word} (h : rd ≠ Reg.pc)
    (hm : psrMode cpsr = psrMode s.cpsr) :
    ∃ t, s.dataResult f rd r cpsr = .next t ∧ t.reg rd = r ∧ Advanced s t ∧ RegisterFrame [rd] s t
      ∧ t.cpsr = if f then cpsr else s.cpsr := by
  refine ⟨_, by rw [State.dataResult, if_neg h], ?_, .setReg_setCpsr s h _ _, .setReg_setCpsr s h _ _, by simp⟩
  apply State.reg_setReg_setCpsr s h
  split <;> simp [*]

/-- Everything a result with the sticky Q flag does. -/
theorem State.writeSticky_spec (s : State) {rd : Reg} (h : rd ≠ Reg.pc) (r : Word) (b : Bool) :
    ∃ t, s.writeSticky rd r b = .next t ∧ t.reg rd = r ∧ (t.q = true ↔ s.q = true ∨ b = true)
      ∧ (∀ k, k ≠ 27 → t.cpsr.getLsbD k = s.cpsr.getLsbD k) ∧ Advanced s t ∧ RegisterFrame [rd] s t := by
  refine ⟨_, rfl, State.reg_setReg_setCpsr s h _ (psrMode_withQ _ _), ?_, ?_, .setReg_setCpsr s h _ _,
    .setReg_setCpsr s h _ _⟩
  · show ((withQ s.cpsr b).getLsbD 27 = true) ↔ _
    rw [withQ_bit]; simp [State.q]
  · intro k hk
    show (withQ s.cpsr b).getLsbD k = _
    rw [withQ_bit]; simp [hk]

/-- Everything a result without a flag does. -/
theorem State.writeResult_spec (s : State) {rd : Reg} (h : rd ≠ Reg.pc) (r : Word) :
    ∃ t, s.writeResult rd r = .next t ∧ t.reg rd = r ∧ t.cpsr = s.cpsr ∧ Advanced s t ∧ RegisterFrame [rd] s t :=
  ⟨_, rfl, by rw [State.reg_advance _ h, State.reg_setReg_same _ h], by simp [State.setReg_eq h], .setReg s h _,
    .setReg s h _⟩

/-- Everything an accumulation does. -/
theorem State.accumulate_spec (s : State) (p : Int) :
    ∃ t, s.accumulate p = .next t ∧ (t.acc0.toNat : Int) = (p + s.acc0.toNat) % 1099511627776
      ∧ t.cpsr = s.cpsr ∧ Advanced s t ∧ AccumulatorFrame [] s t := by
  refine ⟨_, rfl, ?_, by simp, ⟨rfl, rfl⟩, .accumulator _ _⟩
  simp only [State.advance_acc0, BitVec.toNat_add, BitVec.toNat_ofInt]
  have : s.acc0.toNat < 2 ^ 40 := s.acc0.isLt
  omega

/-! ## Transfers of control -/

theorem State.link_eq (s : State) : s.link = s.setBanked s.mode Reg.lr (s.pc + 4) := State.setReg_eq (by decide) _

/-- The target of B, BL and BLX (rule R151). -/
theorem State.branchTarget_toNat (s : State) (imm : BitVec 24) :
    ((s.branchTarget imm).toNat : Int) = (s.pc.toNat + 8 + 4 * imm.toInt) % 4294967296 := by
  unfold State.branchTarget
  have h := branchOffset_toNat imm
  rw [BitVec.toNat_add, BitVec.toNat_add]
  show (((s.pc.toNat + 8) % 4294967296 + _) % 4294967296 : Nat) = (_ : Int)
  generalize (branchOffset imm).toNat = x at *
  omega

/-- Everything BX's transfer does. -/
theorem State.exchangeBranch_spec (s : State) {v : Word} (h : v.toNat % 4 ≠ 2) :
    ∃ t, s.exchangeBranch v = .next t ∧ t.pc.toNat = v.toNat / 2 * 2 ∧ t.pastTop = false ∧ t.thumb = v.getLsbD 0
      ∧ (∀ k, k ≠ 5 → t.cpsr.getLsbD k = s.cpsr.getLsbD k)
      ∧ t = { s with cpsr := t.cpsr, pc := t.pc, pastTop := false } := by
  unfold State.exchangeBranch
  rw [if_neg (fun x => h ((low_two_two v).1 x))]
  refine ⟨_, rfl, mask_even v, rfl, ?_, ?_, rfl⟩
  · show (mergeMask 0x20 s.cpsr (bitAt (v.getLsbD 0) 5)).getLsbD 5 = _
    rw [exchange_bit]; simp
  · intro k hk
    show (mergeMask 0x20 s.cpsr (bitAt (v.getLsbD 0) 5)).getLsbD k = _
    rw [exchange_bit]; simp [hk]

theorem State.exchangeBranch_refused (s : State) {v : Word} (h : v.toNat % 4 = 2) :
    s.exchangeBranch v = .refused .unalignedBranch := by
  unfold State.exchangeBranch
  rw [if_pos ((low_two_two v).2 h)]

/-! ## Data accesses in a quiet environment -/

theorem State.now_congr {s t : State} (h : t.env = s.env) : t.now = s.now := by unfold State.now; rw [h]

theorem State.NoDataError.congr {s t : State} (h : t.env = s.env) (q : s.NoDataError) : t.NoDataError := by
  unfold State.NoDataError; rw [State.now_congr h]; exact q

theorem State.parityStrikes_quiet {s : State} (h : s.NoDataError) (p : Policy) : s.parityStrikes p = false := by
  simp [State.parityStrikes, h.2]

theorem State.owe_quiet {s : State} (h : s.NoDataError) (p : Policy) (l : Bool) : s.owe p l = s := by
  simp [State.owe, State.abortOwed, h.1, State.parityStrikes_quiet h]

theorem State.loaded_quiet {s : State} (h : s.NoDataError) (p : Policy) (k : Nat) (v : Word) :
    s.loaded p k v = v := by
  simp [State.loaded, h.1, State.parityStrikes_quiet h]

theorem alignment_aligned {va : Word} {s : State} (w : Width) (h : va.toNat % w.bytes = 0) :
    alignment w va s = .aligned := by
  unfold alignment; rw [if_pos h]

theorem State.storeBytes_mem_quiet {u : State} (q : u.NoDataError) (p : Policy) (a : Nat) (bs : List Byte) :
    (u.storeBytes p a bs).mem = Memory.writeBytes u.mem a bs := by
  simp [State.storeVoided, q.1]

/-- A translated access changes the data TLB at most. -/
theorem dataTranslate_state {w : Bool} {far va : Word} {s : State} {a : Access}
    (h : dataTranslate w far va s = .ok a) : ∃ d, a.state = { s with dtlb := d } := by
  obtain ⟨x, hx, _⟩ := dataTranslate_ok h
  rcases translate_state hx with e | ⟨e, he⟩
  · exact ⟨s.dtlb, e⟩
  · exact ⟨_, he⟩

/-- What a translated access shares with the state it began in. -/
theorem dataTranslate_like {w : Bool} {far va : Word} {s : State} {a : Access}
    (h : dataTranslate w far va s = .ok a) :
    DataStep s a.state ∧ a.state.mem = s.mem ∧ a.state.owed = s.owed ∧ a.state.stored = s.stored
      ∧ a.state.dirty = s.dirty ∧ a.state.subWord = s.subWord := by
  obtain ⟨d, hd⟩ := dataTranslate_state h
  rw [hd]
  exact ⟨rfl, rfl, rfl, rfl, rfl, rfl⟩

theorem DataStep.storeBytes {s u : State} (h : DataStep s u) (p : Policy) (a : Nat) (bs : List Byte) :
    DataStep s (u.storeBytes p a bs) := by
  unfold DataStep at *
  rw [h]
  rfl

theorem DataStep.trans {s t u : State} (h : DataStep s t) (k : DataStep t u) : DataStep s u := by
  unfold DataStep at *
  rw [h] at k
  exact k

/-- A store changes no byte but those stored, whatever the environment reports. -/
theorem MemoryKeptBut.storeBytes (u : State) (p : Policy) (a : Nat) (bs : List Byte) :
    MemoryKeptBut a bs.length u (u.storeBytes p a bs) := by
  intro x hx
  rw [State.storeBytes_mem]
  split
  · rfl
  · refine Memory.read_writeBytes_outside _ _ ?_
    split
    · rw [badBytes_length]; omega
    · omega

/-- A store that an external error on a stall-until-complete region voids writes nothing (rule R402). -/
theorem State.storeBytes_voided {u : State} {p : Policy} (h : u.storeVoided p = true) (a : Nat) (bs : List Byte) :
    (u.storeBytes p a bs).mem = u.mem ∧ (u.storeBytes p a bs).stored = u.stored := by
  simp [h]

theorem DataStep.gpr_eq {s u : State} (h : DataStep s u) : u.gpr = s.gpr := by unfold DataStep at h; rw [h]
theorem DataStep.cpsr_eq {s u : State} (h : DataStep s u) : u.cpsr = s.cpsr := by unfold DataStep at h; rw [h]
theorem DataStep.pc_eq {s u : State} (h : DataStep s u) : u.pc = s.pc := by unfold DataStep at h; rw [h]
theorem DataStep.env_eq {s u : State} (h : DataStep s u) : u.env = s.env := by unfold DataStep at h; rw [h]
theorem DataStep.eff_eq {s u : State} (h : DataStep s u) : u.eff = s.eff := by unfold DataStep at h; rw [h]
theorem DataStep.mode_eq {s u : State} (h : DataStep s u) : u.mode = s.mode := State.mode_congr h.cpsr_eq

/-- The registers once a base has been written back. -/
def writeBackPlace (g : Vector Word 30) (m : Mode) (rn : Reg) (a : Address) : Vector Word 30 :=
  match a.writeback with
  | none => g
  | some v => g.set (bank m rn) v

theorem State.writeBack_eq {u : State} {rn : Reg} {a : Address} (h : a.writeback ≠ none → rn ≠ Reg.pc) :
    u.writeBack rn a = { u with gpr := writeBackPlace u.gpr u.mode rn a } := by
  unfold State.writeBack writeBackPlace
  cases e : a.writeback with
  | none => rfl
  | some v =>
    simp only
    rw [State.setReg_eq (h (by rw [e]; simp))]
    rfl

theorem writeBackPlace_other {s : State} {rn : Reg} {a : Address} {k : Fin 30}
    (hk : ∀ r ∈ writtenWith rn a [], k ≠ bank s.mode r) : (writeBackPlace s.gpr s.mode rn a)[k] = s.gpr[k] := by
  unfold writeBackPlace
  unfold writtenWith at hk
  cases e : a.writeback with
  | none => rfl
  | some v =>
    rw [e] at hk
    have := hk rn (by simp)
    show (s.gpr.set _ v)[(k : Nat)] = s.gpr[(k : Nat)]
    rw [Vector.getElem_set_ne]
    intro e
    exact this (Fin.ext e.symm)

theorem RegistersKeptBut.writeBack {s t : State} {rn : Reg} {a : Address}
    (h : t.gpr = writeBackPlace s.gpr s.mode rn a) : RegistersKeptBut (writtenWith rn a []) s t := by
  intro k hk
  rw [h]
  exact writeBackPlace_other hk

theorem RegistersKeptBut.writeBack_set {s t : State} {rn rd : Reg} {a : Address} {v : Word}
    (h : t.gpr = (writeBackPlace s.gpr s.mode rn a).set (bank s.mode rd) v) :
    RegistersKeptBut (writtenWith rn a [rd]) s t := by
  intro k hk
  rw [h]
  have h1 : k ≠ bank s.mode rd := hk rd (by unfold writtenWith; split <;> simp)
  show ((writeBackPlace _ _ _ _).set _ v)[(k : Nat)] = _
  rw [Vector.getElem_set_ne]
  · exact writeBackPlace_other (fun r hr => hk r (by unfold writtenWith at hr ⊢; split at hr <;> simp_all))
  · intro e; exact h1 (Fin.ext e.symm)

theorem BaseAfter.writeBack {s t : State} {rn : Reg} {a : Address} (hm : t.mode = s.mode)
    (h : t.gpr = writeBackPlace s.gpr s.mode rn a) (hw : a.writeback ≠ none → rn ≠ Reg.pc) : BaseAfter rn a t := by
  intro v hv
  refine State.reg_of (hw (by rw [hv]; simp)) (g := s.gpr) (m := s.mode) ?_ hm
  rw [h]
  unfold writeBackPlace
  rw [hv]

theorem BaseAfter.writeBack_set {s t : State} {rn rd : Reg} {a : Address} {v : Word} (hm : t.mode = s.mode)
    (hr : rd ≠ Reg.pc) (h : t.gpr = (writeBackPlace s.gpr s.mode rn a).set (bank s.mode rd) v)
    (hw : a.writeback ≠ none → rn ≠ Reg.pc ∧ rn ≠ rd) : BaseAfter rn a t := by
  intro v' hv
  obtain ⟨h1, h2⟩ := hw (by rw [hv]; simp)
  rw [State.reg_banked _ h1]
  have : ∀ m, m = s.mode → t.gpr[bank m rn] = v' := by
    intro m hm
    subst hm
    rw [h]
    unfold writeBackPlace
    rw [hv]
    show ((s.gpr.set _ v').set _ v)[(bank s.mode rn : Nat)] = v'
    rw [Vector.getElem_set_ne]
    · simp
    · intro e; exact h2 (bank_injective s.mode h1 hr (Fin.ext e.symm))
  exact this _ hm

/-- A predictable writeback names neither R15 nor the register loaded (rule R149). -/
theorem basePredictable_writeback {m : Index} {u : Bool} {b o : Word} {rn rd : Reg}
    (hp : basePredictable m rn rd = true) (h : (indexedAddress m u b o).writeback ≠ none) :
    rn ≠ Reg.pc ∧ rn ≠ rd := by
  cases m <;> simp_all [indexedAddress, basePredictable, Index.writesBack]

theorem AccessFrame.of_step {rs : List Reg} {f n : Nat} {u s t : State} (hl : DataStep s u) (ho : u.owed = s.owed)
    (hr : RegistersKeptBut rs s t) (hm : MemoryKeptBut f n s t)
    (h : ∃ g c p q, t = { u with gpr := g, cpsr := c, pc := p, pastTop := q }) : AccessFrame rs f n u s t := by
  obtain ⟨g, c, p, q, rfl⟩ := h
  unfold DataStep at hl
  exact ⟨⟨hr, by rw [hl], .of (by rw [hl]; simp), rfl, hm⟩, by simpa using ho⟩

/-- The end of a load: a register, the base where the form writes it back, and the program counter. -/
theorem load_end {s u : State} {rn rd : Reg} {a : Address} {v : Word} (hl : DataStep s u)
    (hw : a.writeback ≠ none → rn ≠ Reg.pc) (hr : rd ≠ Reg.pc) :
    ((u.writeBack rn a).setReg rd v).advance
      = { u with gpr := (writeBackPlace s.gpr s.mode rn a).set (bank s.mode rd) v, pc := s.pc + 4,
                 pastTop := decide (4294967292 ≤ s.pc.toNat) } := by
  rw [State.writeBack_eq hw, hl.gpr_eq, hl.mode_eq, State.setReg_eq hr]
  have hm : ({ u with gpr := writeBackPlace s.gpr s.mode rn a } : State).mode = s.mode :=
    State.mode_congr hl.cpsr_eq
  rw [hm, State.advance]
  simp only [State.setBanked, hl.pc_eq]

/-- Everything a load that completes does, from what its access did. -/
theorem load_spec {s u : State} {rn rd : Reg} {a : Address} {v : Word} (hl : DataStep s u) (ho : u.owed = s.owed)
    (hm : u.mem = s.mem) (hw : a.writeback ≠ none → rn ≠ Reg.pc ∧ rn ≠ rd) (hr : rd ≠ Reg.pc) :
    ∃ t, ((u.writeBack rn a).setReg rd v).advance = t ∧ t.reg rd = v ∧ BaseAfter rn a t ∧ t.cpsr = s.cpsr
      ∧ Advanced s t ∧ AccessFrame (writtenWith rn a [rd]) 0 0 u s t ∧ t.stored = u.stored ∧ t.dirty = u.dirty
      ∧ t.subWord = u.subWord := by
  have hmd : ∀ t : State, t.cpsr = u.cpsr → t.mode = s.mode := fun t h => State.mode_congr (h.trans hl.cpsr_eq)
  exact ⟨_, load_end hl (fun h => (hw h).1) hr, State.reg_of hr (m := s.mode) rfl (hmd _ rfl),
    .writeBack_set (hmd _ rfl) hr rfl hw, hl.cpsr_eq, ⟨rfl, rfl⟩,
    .of_step hl ho (.writeBack_set rfl) (.of_mem hm) ⟨_, _, _, _, rfl⟩, rfl, rfl, rfl⟩

/-- Everything a store that completes does, from what its access did. -/
theorem store_spec {s u : State} {f n : Nat} {rn : Reg} {a : Address} (hl : DataStep s u) (ho : u.owed = s.owed)
    (hm : MemoryKeptBut f n s u) (hw : a.writeback ≠ none → rn ≠ Reg.pc) :
    ∃ t, (u.writeBack rn a).advance = t ∧ BaseAfter rn a t ∧ t.cpsr = s.cpsr ∧ Advanced s t
      ∧ AccessFrame (writtenWith rn a []) f n u s t ∧ t.mem = u.mem ∧ t.subWord = u.subWord := by
  have hmd : ∀ t : State, t.cpsr = u.cpsr → t.mode = s.mode := fun t h => State.mode_congr (h.trans hl.cpsr_eq)
  have e : (u.writeBack rn a).advance
      = { u with gpr := writeBackPlace s.gpr s.mode rn a, pc := s.pc + 4,
                 pastTop := decide (4294967292 ≤ s.pc.toNat) } := by
    rw [State.writeBack_eq hw, hl.gpr_eq, hl.mode_eq, State.advance]
    simp only [hl.pc_eq]
  exact ⟨_, e, .writeBack (hmd _ rfl) rfl hw, hl.cpsr_eq, ⟨rfl, rfl⟩,
    .of_step hl ho (.writeBack rfl) hm ⟨_, _, _, _, rfl⟩, rfl, rfl⟩

/-- Everything a swap that completes does, from what its access did. -/
theorem swap_spec {s u : State} {f n : Nat} {rd : Reg} {v : Word} (hl : DataStep s u) (ho : u.owed = s.owed)
    (hm : MemoryKeptBut f n s u) (hr : rd ≠ Reg.pc) :
    ∃ t, (u.setReg rd v).advance = t ∧ t.reg rd = v ∧ t.cpsr = s.cpsr ∧ Advanced s t
      ∧ AccessFrame [rd] f n u s t ∧ t.mem = u.mem ∧ t.subWord = u.subWord := by
  have hmd : ∀ t : State, t.cpsr = u.cpsr → t.mode = s.mode := fun t h => State.mode_congr (h.trans hl.cpsr_eq)
  have e : (u.setReg rd v).advance
      = { u with gpr := s.gpr.set (bank s.mode rd) v, pc := s.pc + 4,
                 pastTop := decide (4294967292 ≤ s.pc.toNat) } := by
    rw [State.setReg_eq hr, hl.mode_eq, State.advance]
    simp only [State.setBanked, hl.pc_eq, hl.gpr_eq]
  exact ⟨_, e, State.reg_of hr (m := s.mode) rfl (hmd _ rfl), hl.cpsr_eq, ⟨rfl, rfl⟩,
    .of_step hl ho (.one rfl) hm ⟨_, _, _, _, rfl⟩, rfl, rfl⟩

end Sys2Proof.Machine
end

