-- ==== Sys2Proof/Laws/PerInstr.lean ====
section
/-!
SUPPORT. Statements about every instruction, made constructor by constructor. `CodeFits`: the number the encoder
writes has 32 bits, so that `encode` drops none of them (rule R140).
-/

namespace Sys2Proof.Laws

/-- The encoder's number is a 32-bit word (rule R140). -/
def CodeFits.Statement (i : Instr) : Prop := i.code < 4294967296

/-! ## The largest value of each part of a word -/

theorem put_le {n : Nat} (v : BitVec n) (lo : Nat) : put v lo ≤ (2 ^ n - 1) * 2 ^ lo :=
  Nat.mul_le_mul_right _ (Nat.le_sub_one_of_lt v.isLt)

theorem putBit_le (b : Bool) (i : Nat) : putBit b i ≤ 1 * 2 ^ i := Nat.mul_le_mul_right _ b.toNat_le

theorem putCond_le (c : Cond) : put c.toBits 28 ≤ 14 * 2 ^ 28 :=
  Nat.mul_le_mul_right _ (Nat.le_of_lt_succ c.toBits_lt)

theorem putTransfer_le (c : Cond) (m : Index) (u : Bool) (rn rd : Reg) :
    putTransfer c m u rn rd ≤ 14 * 2 ^ 28 + 1 * 2 ^ 24 + 1 * 2 ^ 23 + 1 * 2 ^ 21 + 15 * 2 ^ 16 + 15 * 2 ^ 12 :=
  Nat.add_le_add (Nat.add_le_add (Nat.add_le_add (Nat.add_le_add (Nat.add_le_add (putCond_le c) (putBit_le _ _))
    (putBit_le _ _)) (putBit_le _ _)) (put_le rn 16)) (put_le rd 12)

theorem putShiftImm_le (n : BitVec 5) (sh : Shift) (rm : Reg) :
    putShiftImm n sh rm ≤ 31 * 2 ^ 7 + 3 * 2 ^ 5 + 15 * 2 ^ 0 :=
  Nat.add_le_add (Nat.add_le_add (put_le n 7) (put_le sh.toBits 5)) (put_le rm 0)

theorem putShiftReg_le (rs : Reg) (sh : Shift) (rm : Reg) :
    putShiftReg rs sh rm ≤ 15 * 2 ^ 8 + 3 * 2 ^ 5 + 15 * 2 ^ 0 :=
  Nat.add_le_add (Nat.add_le_add (put_le rs 8) (put_le sh.toBits 5)) (put_le rm 0)

theorem putSplit_le (off : BitVec 8) : putSplit off ≤ 15 * 2 ^ 8 + 15 :=
  Nat.add_le_add (Nat.mul_le_mul_right _ (Nat.le_of_lt_succ (Nat.div_lt_of_lt_mul off.isLt)))
    (Nat.le_of_lt_succ (Nat.mod_lt _ (by decide)))

/-- A sum of parts is below a bound when the sum of their largest values is. -/
theorem below {a b n : Nat} (h : a ≤ b) (k : b < n) : a < n := Nat.lt_of_le_of_lt h k

theorem CodeFits.pldImm (u : Bool) (rn : Reg) (off : BitVec 12) : CodeFits.Statement (.pldImm u rn off) :=
  below (Nat.add_le_add (Nat.add_le_add (Nat.add_le_add (Nat.le_refl 0xF550F000) (putBit_le u 23)) (put_le rn 16))
    (put_le off 0)) (by decide)

theorem CodeFits.pldReg (u : Bool) (rn : Reg) (n : BitVec 5) (sh : Shift) (rm : Reg) : CodeFits.Statement (.pldReg u
    rn n sh rm) :=
  below (Nat.add_le_add (Nat.add_le_add (Nat.add_le_add (Nat.le_refl 0xF750F000) (putBit_le u 23)) (put_le rn 16))
    (putShiftImm_le n sh rm)) (by decide)

theorem CodeFits.blxImm (h : Bool) (imm : BitVec 24) : CodeFits.Statement (.blxImm h imm) :=
  below (Nat.add_le_add (Nat.add_le_add (Nat.le_refl 0xFA000000) (putBit_le h 24)) (put_le imm 0)) (by decide)

theorem CodeFits.mia (c : Cond) (rs rm : Reg) : CodeFits.Statement (.mia c rs rm) :=
  below (Nat.add_le_add (Nat.add_le_add (Nat.add_le_add (Nat.le_refl 0x0E200010) (putCond_le c)) (put_le rs 12))
    (put_le rm 0)) (by decide)

theorem CodeFits.miaph (c : Cond) (rs rm : Reg) : CodeFits.Statement (.miaph c rs rm) :=
  below (Nat.add_le_add (Nat.add_le_add (Nat.add_le_add (Nat.le_refl 0x0E280010) (putCond_le c)) (put_le rs 12))
    (put_le rm 0)) (by decide)

theorem CodeFits.miabb (c : Cond) (rs rm : Reg) : CodeFits.Statement (.miabb c rs rm) :=
  below (Nat.add_le_add (Nat.add_le_add (Nat.add_le_add (Nat.le_refl 0x0E2C0010) (putCond_le c)) (put_le rs 12))
    (put_le rm 0)) (by decide)

theorem CodeFits.miabt (c : Cond) (rs rm : Reg) : CodeFits.Statement (.miabt c rs rm) :=
  below (Nat.add_le_add (Nat.add_le_add (Nat.add_le_add (Nat.le_refl 0x0E2D0010) (putCond_le c)) (put_le rs 12))
    (put_le rm 0)) (by decide)

theorem CodeFits.miatb (c : Cond) (rs rm : Reg) : CodeFits.Statement (.miatb c rs rm) :=
  below (Nat.add_le_add (Nat.add_le_add (Nat.add_le_add (Nat.le_refl 0x0E2E0010) (putCond_le c)) (put_le rs 12))
    (put_le rm 0)) (by decide)

theorem CodeFits.miatt (c : Cond) (rs rm : Reg) : CodeFits.Statement (.miatt c rs rm) :=
  below (Nat.add_le_add (Nat.add_le_add (Nat.add_le_add (Nat.le_refl 0x0E2F0010) (putCond_le c)) (put_le rs 12))
    (put_le rm 0)) (by decide)

theorem CodeFits.mar (c : Cond) (hi lo : Reg) : CodeFits.Statement (.mar c hi lo) :=
  below (Nat.add_le_add (Nat.add_le_add (Nat.add_le_add (Nat.le_refl 0x0C400000) (putCond_le c)) (put_le hi 16))
    (put_le lo 12)) (by decide)

theorem CodeFits.mra (c : Cond) (hi lo : Reg) : CodeFits.Statement (.mra c hi lo) :=
  below (Nat.add_le_add (Nat.add_le_add (Nat.add_le_add (Nat.le_refl 0x0C500000) (putCond_le c)) (put_le hi 16))
    (put_le lo 12)) (by decide)

theorem CodeFits.mcrr (c : Cond) (rn rd cp op crm : BitVec 4) : CodeFits.Statement (.mcrr c rn rd cp op crm) :=
  below (Nat.add_le_add (Nat.add_le_add (Nat.add_le_add (Nat.add_le_add (Nat.add_le_add (Nat.add_le_add (Nat.le_refl
    0x0C400000) (putCond_le c)) (put_le rn 16)) (put_le rd 12)) (put_le cp 8)) (put_le op 4)) (put_le crm 0)) (by
    decide)

theorem CodeFits.mrrc (c : Cond) (rn rd cp op crm : BitVec 4) : CodeFits.Statement (.mrrc c rn rd cp op crm) :=
  below (Nat.add_le_add (Nat.add_le_add (Nat.add_le_add (Nat.add_le_add (Nat.add_le_add (Nat.add_le_add (Nat.le_refl
    0x0C500000) (putCond_le c)) (put_le rn 16)) (put_le rd 12)) (put_le cp 8)) (put_le op 4)) (put_le crm 0)) (by
    decide)

theorem CodeFits.mcr (c : Cond) (crn : BitVec 4) (rd : Reg) (op2 : BitVec 3) (crm : BitVec 4) : CodeFits.Statement
    (.mcr c crn rd op2 crm) :=
  below (Nat.add_le_add (Nat.add_le_add (Nat.add_le_add (Nat.add_le_add (Nat.add_le_add (Nat.le_refl 0x0E000F10)
    (putCond_le c)) (put_le crn 16)) (put_le rd 12)) (put_le op2 5)) (put_le crm 0)) (by decide)

theorem CodeFits.mrc (c : Cond) (crn : BitVec 4) (rd : Reg) (op2 : BitVec 3) (crm : BitVec 4) : CodeFits.Statement
    (.mrc c crn rd op2 crm) :=
  below (Nat.add_le_add (Nat.add_le_add (Nat.add_le_add (Nat.add_le_add (Nat.add_le_add (Nat.le_refl 0x0E100F10)
    (putCond_le c)) (put_le crn 16)) (put_le rd 12)) (put_le op2 5)) (put_le crm 0)) (by decide)

theorem CodeFits.b (c : Cond) (imm : BitVec 24) : CodeFits.Statement (.b c imm) :=
  below (Nat.add_le_add (Nat.add_le_add (Nat.le_refl 0x0A000000) (putCond_le c)) (put_le imm 0)) (by decide)

theorem CodeFits.bl (c : Cond) (imm : BitVec 24) : CodeFits.Statement (.bl c imm) :=
  below (Nat.add_le_add (Nat.add_le_add (Nat.le_refl 0x0B000000) (putCond_le c)) (put_le imm 0)) (by decide)

theorem CodeFits.swi (c : Cond) (imm : BitVec 24) : CodeFits.Statement (.swi c imm) :=
  below (Nat.add_le_add (Nat.add_le_add (Nat.le_refl 0x0F000000) (putCond_le c)) (put_le imm 0)) (by decide)

theorem CodeFits.ldrImm (c : Cond) (m : Index) (u : Bool) (rn rd : Reg) (off : BitVec 12) : CodeFits.Statement
    (.ldrImm c m u rn rd off) :=
  below (Nat.add_le_add (Nat.add_le_add (Nat.le_refl 0x04100000) (putTransfer_le c m u rn rd)) (put_le off 0)) (by
    decide)

theorem CodeFits.ldrReg (c : Cond) (m : Index) (u : Bool) (rn rd : Reg) (n : BitVec 5) (sh : Shift) (rm : Reg) :
    CodeFits.Statement (.ldrReg c m u rn rd n sh rm) :=
  below (Nat.add_le_add (Nat.add_le_add (Nat.le_refl 0x06100000) (putTransfer_le c m u rn rd)) (putShiftImm_le n sh
    rm)) (by decide)

theorem CodeFits.strImm (c : Cond) (m : Index) (u : Bool) (rn rd : Reg) (off : BitVec 12) : CodeFits.Statement
    (.strImm c m u rn rd off) :=
  below (Nat.add_le_add (Nat.add_le_add (Nat.le_refl 0x04000000) (putTransfer_le c m u rn rd)) (put_le off 0)) (by
    decide)

theorem CodeFits.strReg (c : Cond) (m : Index) (u : Bool) (rn rd : Reg) (n : BitVec 5) (sh : Shift) (rm : Reg) :
    CodeFits.Statement (.strReg c m u rn rd n sh rm) :=
  below (Nat.add_le_add (Nat.add_le_add (Nat.le_refl 0x06000000) (putTransfer_le c m u rn rd)) (putShiftImm_le n sh
    rm)) (by decide)

theorem CodeFits.mla (c : Cond) (s : Bool) (rd rn rs rm : Reg) : CodeFits.Statement (.mla c s rd rn rs rm) :=
  below (Nat.add_le_add (Nat.add_le_add (Nat.add_le_add (Nat.add_le_add (Nat.add_le_add (Nat.add_le_add (Nat.le_refl
    0x00200090) (putCond_le c)) (putBit_le s 20)) (put_le rd 16)) (put_le rn 12)) (put_le rs 8)) (put_le rm 0)) (by
    decide)

theorem CodeFits.swp (c : Cond) (rn rd rm : Reg) : CodeFits.Statement (.swp c rn rd rm) :=
  below (Nat.add_le_add (Nat.add_le_add (Nat.add_le_add (Nat.add_le_add (Nat.le_refl 0x01000090) (putCond_le c))
    (put_le rn 16)) (put_le rd 12)) (put_le rm 0)) (by decide)

theorem CodeFits.swpb (c : Cond) (rn rd rm : Reg) : CodeFits.Statement (.swpb c rn rd rm) :=
  below (Nat.add_le_add (Nat.add_le_add (Nat.add_le_add (Nat.add_le_add (Nat.le_refl 0x01400090) (putCond_le c))
    (put_le rn 16)) (put_le rd 12)) (put_le rm 0)) (by decide)

theorem CodeFits.ldrshImm (c : Cond) (m : Index) (u : Bool) (rn rd : Reg) (off : BitVec 8) : CodeFits.Statement
    (.ldrshImm c m u rn rd off) :=
  below (Nat.add_le_add (Nat.add_le_add (Nat.le_refl 0x005000F0) (putTransfer_le c m u rn rd)) (putSplit_le off)) (by
    decide)

theorem CodeFits.ldrshReg (c : Cond) (m : Index) (u : Bool) (rn rd rm : Reg) : CodeFits.Statement (.ldrshReg c m u rn
    rd rm) :=
  below (Nat.add_le_add (Nat.add_le_add (Nat.le_refl 0x001000F0) (putTransfer_le c m u rn rd)) (put_le rm 0)) (by
    decide)

theorem CodeFits.ldrdImm (c : Cond) (m : Index) (u : Bool) (rn rd : Reg) (off : BitVec 8) : CodeFits.Statement
    (.ldrdImm c m u rn rd off) :=
  below (Nat.add_le_add (Nat.add_le_add (Nat.le_refl 0x004000D0) (putTransfer_le c m u rn rd)) (putSplit_le off)) (by
    decide)

theorem CodeFits.ldrdReg (c : Cond) (m : Index) (u : Bool) (rn rd rm : Reg) : CodeFits.Statement (.ldrdReg c m u rn rd
    rm) :=
  below (Nat.add_le_add (Nat.add_le_add (Nat.le_refl 0x000000D0) (putTransfer_le c m u rn rd)) (put_le rm 0)) (by
    decide)

theorem CodeFits.strdImm (c : Cond) (m : Index) (u : Bool) (rn rd : Reg) (off : BitVec 8) : CodeFits.Statement
    (.strdImm c m u rn rd off) :=
  below (Nat.add_le_add (Nat.add_le_add (Nat.le_refl 0x004000F0) (putTransfer_le c m u rn rd)) (putSplit_le off)) (by
    decide)

theorem CodeFits.strdReg (c : Cond) (m : Index) (u : Bool) (rn rd rm : Reg) : CodeFits.Statement (.strdReg c m u rn rd
    rm) :=
  below (Nat.add_le_add (Nat.add_le_add (Nat.le_refl 0x000000F0) (putTransfer_le c m u rn rd)) (put_le rm 0)) (by
    decide)

theorem CodeFits.smla (c : Cond) (rd rn rs : Reg) (y x : Half) (rm : Reg) : CodeFits.Statement (.smla c rd rn rs y x
    rm) :=
  below (Nat.add_le_add (Nat.add_le_add (Nat.add_le_add (Nat.add_le_add (Nat.add_le_add (Nat.add_le_add
    (Nat.add_le_add (Nat.le_refl 0x01000080) (putCond_le c)) (put_le rd 16)) (put_le rn 12)) (put_le rs 8)) (putBit_le
    y.toBit 6)) (putBit_le x.toBit 5)) (put_le rm 0)) (by decide)

theorem CodeFits.smlaw (c : Cond) (rd rn rs : Reg) (y : Half) (rm : Reg) : CodeFits.Statement (.smlaw c rd rn rs y rm)
    :=
  below (Nat.add_le_add (Nat.add_le_add (Nat.add_le_add (Nat.add_le_add (Nat.add_le_add (Nat.add_le_add (Nat.le_refl
    0x01200080) (putCond_le c)) (put_le rd 16)) (put_le rn 12)) (put_le rs 8)) (putBit_le y.toBit 6)) (put_le rm 0))
    (by decide)

theorem CodeFits.smulw (c : Cond) (rd rs : Reg) (y : Half) (rm : Reg) : CodeFits.Statement (.smulw c rd rs y rm) :=
  below (Nat.add_le_add (Nat.add_le_add (Nat.add_le_add (Nat.add_le_add (Nat.add_le_add (Nat.le_refl 0x012000A0)
    (putCond_le c)) (put_le rd 16)) (put_le rs 8)) (putBit_le y.toBit 6)) (put_le rm 0)) (by decide)

theorem CodeFits.smlal (c : Cond) (hi lo rs : Reg) (y x : Half) (rm : Reg) : CodeFits.Statement (.smlal c hi lo rs y x
    rm) :=
  below (Nat.add_le_add (Nat.add_le_add (Nat.add_le_add (Nat.add_le_add (Nat.add_le_add (Nat.add_le_add
    (Nat.add_le_add (Nat.le_refl 0x01400080) (putCond_le c)) (put_le hi 16)) (put_le lo 12)) (put_le rs 8)) (putBit_le
    y.toBit 6)) (putBit_le x.toBit 5)) (put_le rm 0)) (by decide)

theorem CodeFits.smul (c : Cond) (rd rs : Reg) (y x : Half) (rm : Reg) : CodeFits.Statement (.smul c rd rs y x rm) :=
  below (Nat.add_le_add (Nat.add_le_add (Nat.add_le_add (Nat.add_le_add (Nat.add_le_add (Nat.add_le_add (Nat.le_refl
    0x01600080) (putCond_le c)) (put_le rd 16)) (put_le rs 8)) (putBit_le y.toBit 6)) (putBit_le x.toBit 5)) (put_le
    rm 0)) (by decide)

theorem CodeFits.qadd (c : Cond) (rn rd rm : Reg) : CodeFits.Statement (.qadd c rn rd rm) :=
  below (Nat.add_le_add (Nat.add_le_add (Nat.add_le_add (Nat.add_le_add (Nat.le_refl 0x01000050) (putCond_le c))
    (put_le rn 16)) (put_le rd 12)) (put_le rm 0)) (by decide)

theorem CodeFits.qsub (c : Cond) (rn rd rm : Reg) : CodeFits.Statement (.qsub c rn rd rm) :=
  below (Nat.add_le_add (Nat.add_le_add (Nat.add_le_add (Nat.add_le_add (Nat.le_refl 0x01200050) (putCond_le c))
    (put_le rn 16)) (put_le rd 12)) (put_le rm 0)) (by decide)

theorem CodeFits.qdadd (c : Cond) (rn rd rm : Reg) : CodeFits.Statement (.qdadd c rn rd rm) :=
  below (Nat.add_le_add (Nat.add_le_add (Nat.add_le_add (Nat.add_le_add (Nat.le_refl 0x01400050) (putCond_le c))
    (put_le rn 16)) (put_le rd 12)) (put_le rm 0)) (by decide)

theorem CodeFits.qdsub (c : Cond) (rn rd rm : Reg) : CodeFits.Statement (.qdsub c rn rd rm) :=
  below (Nat.add_le_add (Nat.add_le_add (Nat.add_le_add (Nat.add_le_add (Nat.le_refl 0x01600050) (putCond_le c))
    (put_le rn 16)) (put_le rd 12)) (put_le rm 0)) (by decide)

theorem CodeFits.bx (c : Cond) (rm : Reg) : CodeFits.Statement (.bx c rm) :=
  below (Nat.add_le_add (Nat.add_le_add (Nat.le_refl 0x012FFF10) (putCond_le c)) (put_le rm 0)) (by decide)

theorem CodeFits.blxReg (c : Cond) (rm : Reg) : CodeFits.Statement (.blxReg c rm) :=
  below (Nat.add_le_add (Nat.add_le_add (Nat.le_refl 0x012FFF30) (putCond_le c)) (put_le rm 0)) (by decide)

theorem CodeFits.clz (c : Cond) (rd rm : Reg) : CodeFits.Statement (.clz c rd rm) :=
  below (Nat.add_le_add (Nat.add_le_add (Nat.add_le_add (Nat.le_refl 0x016F0F10) (putCond_le c)) (put_le rd 12))
    (put_le rm 0)) (by decide)

theorem CodeFits.mrs (c : Cond) (r : Bool) (rd : Reg) : CodeFits.Statement (.mrs c r rd) :=
  below (Nat.add_le_add (Nat.add_le_add (Nat.add_le_add (Nat.le_refl 0x010F0000) (putCond_le c)) (putBit_le r 22))
    (put_le rd 12)) (by decide)

theorem CodeFits.msrReg (c : Cond) (r : Bool) (mask : BitVec 4) (rm : Reg) : CodeFits.Statement (.msrReg c r mask rm)
    :=
  below (Nat.add_le_add (Nat.add_le_add (Nat.add_le_add (Nat.add_le_add (Nat.le_refl 0x0120F000) (putCond_le c))
    (putBit_le r 22)) (put_le mask 16)) (put_le rm 0)) (by decide)

theorem CodeFits.msrImm (c : Cond) (r : Bool) (mask rot : BitVec 4) (imm : BitVec 8) : CodeFits.Statement (.msrImm c r
    mask rot imm) :=
  below (Nat.add_le_add (Nat.add_le_add (Nat.add_le_add (Nat.add_le_add (Nat.add_le_add (Nat.le_refl 0x0320F000)
    (putCond_le c)) (putBit_le r 22)) (put_le mask 16)) (put_le rot 8)) (put_le imm 0)) (by decide)

theorem CodeFits.movImm (c : Cond) (s : Bool) (rd : Reg) (rot : BitVec 4) (imm : BitVec 8) : CodeFits.Statement
    (.movImm c s rd rot imm) :=
  below (Nat.add_le_add (Nat.add_le_add (Nat.add_le_add (Nat.add_le_add (Nat.add_le_add (Nat.le_refl 0x03A00000)
    (putCond_le c)) (putBit_le s 20)) (put_le rd 12)) (put_le rot 8)) (put_le imm 0)) (by decide)

theorem CodeFits.movShiftImm (c : Cond) (s : Bool) (rd : Reg) (n : BitVec 5) (sh : Shift) (rm : Reg) :
    CodeFits.Statement (.movShiftImm c s rd n sh rm) :=
  below (Nat.add_le_add (Nat.add_le_add (Nat.add_le_add (Nat.add_le_add (Nat.le_refl 0x01A00000) (putCond_le c))
    (putBit_le s 20)) (put_le rd 12)) (putShiftImm_le n sh rm)) (by decide)

theorem CodeFits.movShiftReg (c : Cond) (s : Bool) (rd rs : Reg) (sh : Shift) (rm : Reg) : CodeFits.Statement
    (.movShiftReg c s rd rs sh rm) :=
  below (Nat.add_le_add (Nat.add_le_add (Nat.add_le_add (Nat.add_le_add (Nat.le_refl 0x01A00010) (putCond_le c))
    (putBit_le s 20)) (put_le rd 12)) (putShiftReg_le rs sh rm)) (by decide)

theorem CodeFits.addImm (c : Cond) (s : Bool) (rn rd : Reg) (rot : BitVec 4) (imm : BitVec 8) : CodeFits.Statement
    (.addImm c s rn rd rot imm) :=
  below (Nat.add_le_add (Nat.add_le_add (Nat.add_le_add (Nat.add_le_add (Nat.add_le_add (Nat.add_le_add (Nat.le_refl
    0x02800000) (putCond_le c)) (putBit_le s 20)) (put_le rn 16)) (put_le rd 12)) (put_le rot 8)) (put_le imm 0)) (by
    decide)

theorem CodeFits.addShiftImm (c : Cond) (s : Bool) (rn rd : Reg) (n : BitVec 5) (sh : Shift) (rm : Reg) :
    CodeFits.Statement (.addShiftImm c s rn rd n sh rm) :=
  below (Nat.add_le_add (Nat.add_le_add (Nat.add_le_add (Nat.add_le_add (Nat.add_le_add (Nat.le_refl 0x00800000)
    (putCond_le c)) (putBit_le s 20)) (put_le rn 16)) (put_le rd 12)) (putShiftImm_le n sh rm)) (by decide)

theorem CodeFits.addShiftReg (c : Cond) (s : Bool) (rn rd rs : Reg) (sh : Shift) (rm : Reg) : CodeFits.Statement
    (.addShiftReg c s rn rd rs sh rm) :=
  below (Nat.add_le_add (Nat.add_le_add (Nat.add_le_add (Nat.add_le_add (Nat.add_le_add (Nat.le_refl 0x00800010)
    (putCond_le c)) (putBit_le s 20)) (put_le rn 16)) (put_le rd 12)) (putShiftReg_le rs sh rm)) (by decide)

theorem CodeFits.subImm (c : Cond) (s : Bool) (rn rd : Reg) (rot : BitVec 4) (imm : BitVec 8) : CodeFits.Statement
    (.subImm c s rn rd rot imm) :=
  below (Nat.add_le_add (Nat.add_le_add (Nat.add_le_add (Nat.add_le_add (Nat.add_le_add (Nat.add_le_add (Nat.le_refl
    0x02400000) (putCond_le c)) (putBit_le s 20)) (put_le rn 16)) (put_le rd 12)) (put_le rot 8)) (put_le imm 0)) (by
    decide)

theorem CodeFits.subShiftImm (c : Cond) (s : Bool) (rn rd : Reg) (n : BitVec 5) (sh : Shift) (rm : Reg) :
    CodeFits.Statement (.subShiftImm c s rn rd n sh rm) :=
  below (Nat.add_le_add (Nat.add_le_add (Nat.add_le_add (Nat.add_le_add (Nat.add_le_add (Nat.le_refl 0x00400000)
    (putCond_le c)) (putBit_le s 20)) (put_le rn 16)) (put_le rd 12)) (putShiftImm_le n sh rm)) (by decide)

theorem CodeFits.subShiftReg (c : Cond) (s : Bool) (rn rd rs : Reg) (sh : Shift) (rm : Reg) : CodeFits.Statement
    (.subShiftReg c s rn rd rs sh rm) :=
  below (Nat.add_le_add (Nat.add_le_add (Nat.add_le_add (Nat.add_le_add (Nat.add_le_add (Nat.le_refl 0x00400010)
    (putCond_le c)) (putBit_le s 20)) (put_le rn 16)) (put_le rd 12)) (putShiftReg_le rs sh rm)) (by decide)

theorem CodeFits.orrImm (c : Cond) (s : Bool) (rn rd : Reg) (rot : BitVec 4) (imm : BitVec 8) : CodeFits.Statement
    (.orrImm c s rn rd rot imm) :=
  below (Nat.add_le_add (Nat.add_le_add (Nat.add_le_add (Nat.add_le_add (Nat.add_le_add (Nat.add_le_add (Nat.le_refl
    0x03800000) (putCond_le c)) (putBit_le s 20)) (put_le rn 16)) (put_le rd 12)) (put_le rot 8)) (put_le imm 0)) (by
    decide)

theorem CodeFits.orrShiftImm (c : Cond) (s : Bool) (rn rd : Reg) (n : BitVec 5) (sh : Shift) (rm : Reg) :
    CodeFits.Statement (.orrShiftImm c s rn rd n sh rm) :=
  below (Nat.add_le_add (Nat.add_le_add (Nat.add_le_add (Nat.add_le_add (Nat.add_le_add (Nat.le_refl 0x01800000)
    (putCond_le c)) (putBit_le s 20)) (put_le rn 16)) (put_le rd 12)) (putShiftImm_le n sh rm)) (by decide)

theorem CodeFits.orrShiftReg (c : Cond) (s : Bool) (rn rd rs : Reg) (sh : Shift) (rm : Reg) : CodeFits.Statement
    (.orrShiftReg c s rn rd rs sh rm) :=
  below (Nat.add_le_add (Nat.add_le_add (Nat.add_le_add (Nat.add_le_add (Nat.add_le_add (Nat.le_refl 0x01800010)
    (putCond_le c)) (putBit_le s 20)) (put_le rn 16)) (put_le rd 12)) (putShiftReg_le rs sh rm)) (by decide)

end Sys2Proof.Laws
end

