-- ==== Sys2Proof/Laws/Step.lean ====
section
/-!
SUPPORT. The step: what it answers once the pending effects have landed, what landing and fetching leave alone, and
that a step which reaches an instruction retires it.
-/

namespace Sys2Proof.Machine

/-- A step past its landings: the exception at the boundary, else the instruction. -/
theorem step_landed {s t : State} (h1 : s.pastTop = false) (h2 : landPending s.now.land s = some t)
    (h3 : psrMode t.cpsr ≠ none) :
    step s = match t.boundaryException with
      | some u => .next u.endStep
      | none => if t.thumb then .refused .thumbState else runInstruction t := by
  unfold step cycle
  rw [if_neg (by rw [h1]; simp), h2]
  exact (if_neg h3).trans (by cases t.boundaryException <;> rfl)

/-- No owed abort is taken exactly where none has the property. -/
theorem takeOwed_eq_none {p : OwedAbort → Bool} {l : List OwedAbort} :
    takeOwed p l = none ↔ ∀ o ∈ l, p o = false := by
  unfold takeOwed
  cases h : l.find? p with
  | none => simpa using h
  | some o => simpa using ⟨o, List.mem_of_find?_eq_some h, by simpa using List.find?_some h⟩

/-- The owed abort taken is the first that has the property; the others stay in their order. -/
theorem takeOwed_eq_some {p : OwedAbort → Bool} {l rest : List OwedAbort} {o : OwedAbort}
    (h : takeOwed p l = some (o, rest)) :
    ∃ before after, l = before ++ o :: after ∧ rest = before ++ after ∧ p o = true ∧ ∀ q ∈ before, p q = false := by
  unfold takeOwed at h
  split at h
  · cases h
  · next x hf =>
    injection h with h
    injection h with h1 h2
    subst h1
    obtain ⟨hx, before, after, e, k⟩ := List.find?_eq_some_iff_append.1 hf
    have k' : ∀ q ∈ before, p q = false := fun q hq => by simpa using k q hq
    refine ⟨before, after, e, ?_, hx, k'⟩
    rw [← h2, e, List.erase_append_right _ fun hm => Bool.noConfusion (hx.symm.trans (k' _ hm)), List.erase_cons_head]

/-- What landing may change: the registers in effect, the two TLBs and the list of pending effects. -/
def LandStep (s t : State) : Prop :=
  t = { s with eff := t.eff, pending := t.pending, itlb := t.itlb, dtlb := t.dtlb }

theorem LandStep.refl (s : State) : LandStep s s := rfl

theorem LandStep.trans {s t u : State} (h : LandStep s t) (k : LandStep t u) : LandStep s u := by
  unfold LandStep at *
  rw [h] at k
  exact k

theorem LandStep.setTlb (s : State) (side : Side) (l : Tlb) : LandStep s (s.setTlb side l) := by
  cases side <;> rfl

theorem Cp15Effect.apply_step {e : Cp15Effect} {s t : State} (h : e.apply s = some t) : LandStep s t := by
  cases e <;> simp only [Cp15Effect.apply] at h
  case lock side mva e =>
    split at h
    · cases h
    · injection h with h; rw [← h]; exact .setTlb s side _
  case fill side mva e =>
    injection h with h
    rw [← h]
    split
    · exact .refl s
    · exact .setTlb s side _
  case invalidate side => injection h with h; rw [← h]; exact .setTlb s side _
  case invalidateEntry side mva => injection h with h; rw [← h]; exact .setTlb s side _
  case unlock side => injection h with h; rw [← h]; exact .setTlb s side _
  all_goals (injection h with h; rw [← h]; rfl)

/-- Landing changes nothing else. -/
theorem landPending_step (n : Nat) {s t : State} (h : landPending n s = some t) : LandStep s t := by
  induction n generalizing s with
  | zero => injection h with h; rw [h]; exact .refl t
  | succ n ih =>
    unfold landPending at h
    cases hp : s.pending with
    | nil => rw [hp] at h; injection h with h; rw [h]; exact .refl t
    | cons e rest =>
      rw [hp] at h
      simp only at h
      cases he : e.apply { s with pending := rest } with
      | none => rw [he] at h; cases h
      | some u =>
        rw [he] at h
        exact (show LandStep s { s with pending := rest } from rfl).trans ((e.apply_step he).trans (ih h))

/-- Everything a fetch that reads a word does: it translates the program counter, and reads at the address found. -/
theorem fetch_word {s u : State} {w : Word} (h : s.fetch = .word u w) :
    ∃ pa a, translate .instruction false s.pc s = .ok u pa a ∧ w = u.fetchedWord ⟨wordAlign pa, a.p⟩ := by
  unfold State.fetch at h
  split at h
  · cases h
  · cases h
  · next t pa a ht =>
    split at h
    · cases h
    · split at h
      · cases h
      · injection h with h hw
        subst h
        exact ⟨pa, a, ht, hw.symm⟩

/-- What a fetch reads, told of a state with the same memory, marks and environment. -/
theorem FetchReads.of {s u : State} {pa w : Word} {p : Bool} (h : w = u.fetchedWord ⟨wordAlign pa, p⟩)
    (hm : u.mem = s.mem) (hs : u.stored = s.stored) (he : u.env = s.env) : FetchReads s pa w := by
  unfold State.fetchedWord BusAccess.word at h
  simp only [hm, hs, State.now_congr he, wordAlign_toNat] at h
  refine ⟨fun x => ?_, fun x => ?_, fun y x z => ?_⟩
  · rw [h, if_neg (by simpa using x)]
  · rw [h, x]; simp
  · rw [h, if_pos (by simpa using x), z]; rfl

/-- A fetch changes the instruction TLB at most. -/
theorem fetch_state {s u : State} {w : Word} (h : s.fetch = .word u w) : ∃ d, u = { s with itlb := d } := by
  obtain ⟨pa, a, ht, _⟩ := fetch_word h
  rcases translate_state ht with e | ⟨e, he⟩
  · exact ⟨s.itlb, e⟩
  · exact ⟨_, he⟩

/-- A fetch that aborts changes the instruction TLB at most. -/
theorem fetch_abort_state {s u : State} {status : BitVec 5} (h : s.fetch = .abort u status) :
    ∃ d, u = { s with itlb := d } := by
  unfold State.fetch at h
  split at h
  · injection h with h _
    exact ⟨s.itlb, h.symm⟩
  · cases h
  · next t pa a ht =>
    have ht' : ∃ d, t = { s with itlb := d } := by
      rcases translate_state ht with e | ⟨e, he⟩
      · exact ⟨s.itlb, e⟩
      · exact ⟨_, he⟩
    split at h
    · injection h with h _
      rw [← h]
      exact ht'
    · split at h
      · injection h with h _
        rw [← h]
        exact ht'
      · cases h

/-- A step that reaches an instruction executes and retires it. -/
theorem Runs.retires {s u : State} {i : Instr} (h : Runs s i u) : step s = retire i u (exec i u) := by
  obtain ⟨h1, t, h2, h3, h4, h5, w, h6, h7⟩ := h
  rw [step_landed h1 h2 h3, h4]
  simp only
  rw [if_neg (by rw [h5]; simp)]
  unfold runInstruction
  rw [h6]
  simp only [h7]

/-- The state in which a step reaches its instruction, from the state it began in. -/
theorem Runs.reached {s u : State} {i : Instr} (h : Runs s i u) :
    ∃ t d, landPending s.now.land s = some t ∧ u = { t.ageOwed with itlb := d } ∧ t.boundaryException = none
      ∧ psrMode t.cpsr ≠ none := by
  obtain ⟨_, t, h2, h3, h4, _, w, h6, _⟩ := h
  obtain ⟨d, hd⟩ := fetch_state h6
  exact ⟨t, d, h2, hd, h4, h3⟩

/-- The end of an instruction that does not complete CPWAIT. -/
theorem settle_other {i : Instr} {s t : State} (h : completesCpwait i s = false) :
    settle i s t = some { t with cpwait := cpwaitStage i s } := by
  unfold settle
  rw [h]
  rfl

end Sys2Proof.Machine
end

