-- ==== Sys2Proof/Laws/SystemControl.lean ====
section
/-!
SUPPORT. MCR to coprocessor 15: what a lock function and the lock of an instruction cache line can do, and that no
function of MCR changes anything but the CP15 registers and the list of pending effects.
-/

namespace Sys2Proof.Machine

/-- Translate and lock does one thing, with the MMU on: it issues the lock of an entry. -/
theorem State.translateAndLock_ok {s t : State} {side : Side} {va : Word} (h : s.translateAndLock side va = .ok t) :
    s.cp15.control.getLsbD 0 = true
      ∧ ∃ e, s.walkForLock va = .ok e ∧ t = s.issue (.lock side (remap s.cp15.pid va) e) := by
  unfold State.translateAndLock at h
  split at h
  · next hm =>
    obtain ⟨e, he, h⟩ := Res.bind_ok h
    injection h with h
    exact ⟨hm, e, he, h.symm⟩
  · cases h

/-- The translation of a cache line changes nothing, or issues the fill of the instruction TLB. -/
theorem State.translateLine_ok {s t : State} {va : Word} {l : Tlb} (h : s.translateLine va l = .ok t) :
    t = s ∨ ∃ e, s.walkForLock va = .ok e ∧ t = s.issue (.fill .instruction (remap s.cp15.pid va) e) := by
  unfold State.translateLine at h
  split at h
  · split at h
    · obtain ⟨_, _, h⟩ := Res.bind_ok h
      injection h with h
      exact .inl h.symm
    · obtain ⟨e, he, h⟩ := Res.bind_ok h
      injection h with h
      exact .inr ⟨e, he, h.symm⟩
  · injection h with h
    exact .inl h.symm

/-- The lock of a cache line changes nothing, or issues the fill of the instruction TLB. -/
theorem State.lockCacheLine_ok {s t : State} {va : Word} (h : s.lockCacheLine va = .ok t) :
    t = s ∨ ∃ e, s.walkForLock va = .ok e ∧ t = s.issue (.fill .instruction (remap s.cp15.pid va) e) := by
  unfold State.lockCacheLine at h
  split at h
  · cases h
  · obtain ⟨u, hu, h⟩ := Res.bind_ok h
    split at h
    · cases h
    · injection h with h
      subst h
      exact State.translateLine_ok hu

/-- What an MCR can change: the CP15 registers in program order and the list of pending effects. -/
def ControlStep (s t : State) : Prop :=
  t = { s with cp15 := t.cp15, fsr := t.fsr, far := t.far, dcacheLock := t.dcacheLock, pending := t.pending }

/-- A storage register written changes nothing else. -/
theorem State.writeCp15Register_step {s t : State} {crn crm : BitVec 4} {op2 : BitVec 3} {v : Word}
    (h : s.writeCp15Register crn crm op2 v = some (.ok t)) : ControlStep s t := by
  unfold State.writeCp15Register at h
  repeat' split at h
  all_goals first
    | (cases h; done)
    | (cases h; rfl)

/-- A TLB function issued changes nothing else. -/
theorem State.tlbFunction_step {s t : State} {crn crm : BitVec 4} {op2 : BitVec 3} {v : Word}
    (h : s.tlbFunction crn crm op2 v = some (.ok t)) : ControlStep s t := by
  unfold State.tlbFunction at h
  repeat' split at h
  all_goals first
    | (cases h; done)
    | (obtain ⟨_, e, _, rfl⟩ := State.translateAndLock_ok (Option.some.inj h); rfl)
    | (cases h; rfl)

/-- A cache function changes nothing else. -/
theorem State.cacheFunction_step {s t : State} {crn crm : BitVec 4} {op2 : BitVec 3} {v : Word}
    (h : s.cacheFunction crn crm op2 v = some (.ok t)) : ControlStep s t := by
  unfold State.cacheFunction at h
  repeat' split at h
  all_goals first
    | (cases h; done)
    | (rcases State.lockCacheLine_ok (Option.some.inj h) with rfl | ⟨e, _, rfl⟩ <;> rfl)
    | (cases h; rfl)

/-- An MCR changes nothing else. -/
theorem State.writeCp15_step {s t : State} {crn crm : BitVec 4} {op2 : BitVec 3} {v : Word}
    (h : s.writeCp15 crn crm op2 v = .ok t) : ControlStep s t := by
  unfold State.writeCp15 at h
  split at h
  · next r hr => subst h; exact State.writeCp15Register_step hr
  · split at h
    · next r hr => subst h; exact State.tlbFunction_step hr
    · split at h
      · next r hr => subst h; exact State.cacheFunction_step hr
      · cases h

end Sys2Proof.Machine
end

