-- ==== Sys2Proof/Tests/Slice0.lean ====
section
/-!
SUPPORT. This package's own tests: an ill-formed term for each check of WellFormed, a word written out from its
encoding for each constructor, one or two single steps for each instruction, and for each statement of
Certificates/Slice0/Obligations.lean that has hypotheses a state and operands that meet them.
-/

set_option maxRecDepth 20000

namespace Sys2Proof.Tests

open Sys2Proof Sys2Proof.Machine

/-! ## WellFormed: each check refuses an ill-formed term -/

theorem smoke_mcrr_cp0 : (Instr.mcrr .al 0 0 0 0 0).encodable = false := by decide
theorem smoke_mrrc_cp0 : (Instr.mrrc .al 0 0 0 0 0).encodable = false := by decide
theorem smoke_ldrdImm_odd : (Instr.ldrdImm .al .offset true 0 3 0).encodable = false := by decide
theorem smoke_ldrdReg_odd : (Instr.ldrdReg .al .offset true 0 3 1).encodable = false := by decide
theorem smoke_strdImm_odd : (Instr.strdImm .al .offset true 0 3 0).encodable = false := by decide
theorem smoke_strdReg_odd : (Instr.strdReg .al .offset true 0 3 1).encodable = false := by decide
theorem smoke_pldReg_pc : (Instr.pldReg true 0 0 .lsl 15).predictable = false := by decide
theorem smoke_mia_pc : (Instr.mia .al 15 0).predictable = false := by decide
theorem smoke_miaph_pc : (Instr.miaph .al 0 15).predictable = false := by decide
theorem smoke_miabb_pc : (Instr.miabb .al 15 0).predictable = false := by decide
theorem smoke_miabt_pc : (Instr.miabt .al 0 15).predictable = false := by decide
theorem smoke_miatb_pc : (Instr.miatb .al 15 0).predictable = false := by decide
theorem smoke_miatt_pc : (Instr.miatt .al 0 15).predictable = false := by decide
theorem smoke_mar_same : (Instr.mar .al 1 1).predictable = false := by decide
theorem smoke_mra_same : (Instr.mra .al 1 1).predictable = false := by decide
theorem smoke_mar_pc : (Instr.mar .al 15 1).predictable = false := by decide
theorem smoke_mra_pc : (Instr.mra .al 1 15).predictable = false := by decide
theorem smoke_mcr_pc : (Instr.mcr .al 1 15 0 0).predictable = false := by decide
theorem smoke_ldrImm_base : (Instr.ldrImm .al .preIndexed true 1 1 0).predictable = false := by decide
theorem smoke_ldrReg_base_pc : (Instr.ldrReg .al .postIndexed true 15 1 0 .lsl 2).predictable = false := by decide
theorem smoke_strImm_base_pc : (Instr.strImm .al .postIndexed true 15 1 0).predictable = false := by decide
theorem smoke_strReg_base : (Instr.strReg .al .preIndexed true 1 1 0 .lsl 2).predictable = false := by decide
theorem smoke_mla_pc : (Instr.mla .al false 0 15 1 2).predictable = false := by decide
theorem smoke_mla_rd_rm : (Instr.mla .al false 1 0 2 1).predictable = false := by decide
theorem smoke_swp_base_rm : (Instr.swp .al 1 0 1).predictable = false := by decide
theorem smoke_swpb_base_rd : (Instr.swpb .al 1 1 0).predictable = false := by decide
theorem smoke_ldrshImm_pc : (Instr.ldrshImm .al .offset true 0 15 0).predictable = false := by decide
theorem smoke_ldrshReg_base : (Instr.ldrshReg .al .preIndexed true 1 1 2).predictable = false := by decide
theorem smoke_ldrdImm_lr : (Instr.ldrdImm .al .offset true 0 14 0).predictable = false := by decide
theorem smoke_ldrdReg_index : (Instr.ldrdReg .al .offset true 0 2 3).predictable = false := by decide
theorem smoke_strdImm_base : (Instr.strdImm .al .preIndexed true 3 2 0).predictable = false := by decide
theorem smoke_strdReg_index_pc : (Instr.strdReg .al .postIndexed true 0 2 15).predictable = false := by decide
theorem smoke_smla_pc : (Instr.smla .al 0 15 1 .top .top 2).predictable = false := by decide
theorem smoke_smlaw_pc : (Instr.smlaw .al 15 0 1 .top 2).predictable = false := by decide
theorem smoke_smulw_pc : (Instr.smulw .al 0 15 .top 2).predictable = false := by decide
theorem smoke_smlal_same : (Instr.smlal .al 1 1 2 .top .top 3).predictable = false := by decide
theorem smoke_smul_pc : (Instr.smul .al 0 1 .top .top 15).predictable = false := by decide
theorem smoke_qadd_pc : (Instr.qadd .al 15 0 1).predictable = false := by decide
theorem smoke_qsub_pc : (Instr.qsub .al 0 15 1).predictable = false := by decide
theorem smoke_qdadd_pc : (Instr.qdadd .al 0 1 15).predictable = false := by decide
theorem smoke_qdsub_pc : (Instr.qdsub .al 15 0 1).predictable = false := by decide
theorem smoke_blxReg_pc : (Instr.blxReg .al 15).predictable = false := by decide
theorem smoke_clz_pc : (Instr.clz .al 15 0).predictable = false := by decide
theorem smoke_mrs_pc : (Instr.mrs .al false 15).predictable = false := by decide
theorem smoke_movShiftReg_pc : (Instr.movShiftReg .al false 0 15 .lsl 1).predictable = false := by decide
theorem smoke_addShiftReg_pc : (Instr.addShiftReg .al false 0 15 1 .lsl 2).predictable = false := by decide
theorem smoke_subShiftReg_pc : (Instr.subShiftReg .al false 15 0 1 .lsl 2).predictable = false := by decide
theorem smoke_orrShiftReg_pc : (Instr.orrShiftReg .al false 0 1 2 .lsl 15).predictable = false := by decide
theorem smoke_wellFormed_odd : (Instr.ldrdImm .al .offset true 0 3 0).wellFormed = false := by decide
theorem smoke_wellFormed_pc : (Instr.mia .al 15 0).wellFormed = false := by decide

/-! ## Decoding: a word of every constructor, written out from its encoding

The words of 95_test_vectors.md where it has one; the others from the bit rows of rules R142 to R153. -/

theorem test_decode_pldImm : decodeTableWord 32 0xF551F020 = some (.pldImm false 1 0x20) := by decide
theorem test_decode_pldReg : decodeTableWord 32 0xF7D1F102 = some (.pldReg true 1 2 .lsl 2) := by decide
theorem test_decode_blxImm : decodeTableWord 32 0xFA00003E = some (.blxImm false 0x3E) := by decide
theorem test_decode_mia : decodeTableWord 32 0x1E204013 = some (.mia .ne 4 3) := by decide
theorem test_decode_miaph : decodeTableWord 32 0xEE287016 = some (.miaph .al 7 6) := by decide
theorem test_decode_miabb : decodeTableWord 32 0xEE2C2011 = some (.miabb .al 2 1) := by decide
theorem test_decode_miabt : decodeTableWord 32 0xEE2D2011 = some (.miabt .al 2 1) := by decide
theorem test_decode_miatb : decodeTableWord 32 0xEE2E2011 = some (.miatb .al 2 1) := by decide
theorem test_decode_miatt : decodeTableWord 32 0xEE2F2011 = some (.miatt .al 2 1) := by decide
theorem test_decode_mar : decodeTableWord 32 0xEC454000 = some (.mar .al 5 4) := by decide
theorem test_decode_mra : decodeTableWord 32 0x0C532000 = some (.mra .eq 3 2) := by decide
theorem test_decode_mcrr : decodeTableWord 32 0xEC410F00 = some (.mcrr .al 1 0 15 0 0) := by decide
theorem test_decode_mrrc : decodeTableWord 32 0xEC5123A4 = some (.mrrc .al 1 2 3 10 4) := by decide
theorem test_decode_mcr : decodeTableWord 32 0xEE081F36 = some (.mcr .al 8 1 1 6) := by decide
theorem test_decode_mrc : decodeTableWord 32 0xEE110F10 = some (.mrc .al 1 0 0 0) := by decide
theorem test_decode_b : decodeTableWord 32 0x1AFFFFF9 = some (.b .ne 0xFFFFF9) := by decide
theorem test_decode_bl : decodeTableWord 32 0xEB00003E = some (.bl .al 0x3E) := by decide
theorem test_decode_swi : decodeTableWord 32 0xEF123456 = some (.swi .al 0x123456) := by decide
theorem test_decode_ldrImm : decodeTableWord 32 0xE5B10008 = some (.ldrImm .al .preIndexed true 1 0 8) := by decide
theorem test_decode_ldrReg : decodeTableWord 32 0xE7910102 = some (.ldrReg .al .offset true 1 0 2 .lsl 2) := by decide
theorem test_decode_strImm : decodeTableWord 32 0xE4010004 = some (.strImm .al .postIndexed false 1 0 4) := by decide
theorem test_decode_strReg : decodeTableWord 32 0xE7210363 = some (.strReg .al .preIndexed false 1 0 6 .ror 3) := by
  decide
theorem test_decode_mla : decodeTableWord 32 0xE0303291 = some (.mla .al true 0 3 2 1) := by decide
theorem test_decode_swp : decodeTableWord 32 0xE1010092 = some (.swp .al 1 0 2) := by decide
theorem test_decode_swpb : decodeTableWord 32 0xE1410092 = some (.swpb .al 1 0 2) := by decide
theorem test_decode_ldrshImm : decodeTableWord 32 0xE1D100F2 = some (.ldrshImm .al .offset true 1 0 2) := by decide
theorem test_decode_ldrshReg : decodeTableWord 32 0xE19100F2 = some (.ldrshReg .al .offset true 1 0 2) := by decide
theorem test_decode_ldrdImm : decodeTableWord 32 0xE1E120D8 = some (.ldrdImm .al .preIndexed true 1 2 8) := by decide
theorem test_decode_ldrdReg : decodeTableWord 32 0xE18120D4 = some (.ldrdReg .al .offset true 1 2 4) := by decide
theorem test_decode_strdImm : decodeTableWord 32 0xE0C120F8 = some (.strdImm .al .postIndexed true 1 2 8) := by decide
theorem test_decode_strdReg : decodeTableWord 32 0xE00120F4 = some (.strdReg .al .postIndexed false 1 2 4) := by
  decide
theorem test_decode_smla : decodeTableWord 32 0xE10032A1 = some (.smla .al 0 3 2 .bottom .top 1) := by decide
theorem test_decode_smlaw : decodeTableWord 32 0xE12032C1 = some (.smlaw .al 0 3 2 .top 1) := by decide
theorem test_decode_smulw : decodeTableWord 32 0xE12002E1 = some (.smulw .al 0 2 .top 1) := by decide
theorem test_decode_smlal : decodeTableWord 32 0xE14103A2 = some (.smlal .al 1 0 3 .bottom .top 2) := by decide
theorem test_decode_smul : decodeTableWord 32 0xE16002C1 = some (.smul .al 0 2 .top .bottom 1) := by decide
theorem test_decode_qadd : decodeTableWord 32 0x01020051 = some (.qadd .eq 2 0 1) := by decide
theorem test_decode_qsub : decodeTableWord 32 0xE1220051 = some (.qsub .al 2 0 1) := by decide
theorem test_decode_qdadd : decodeTableWord 32 0xE1420051 = some (.qdadd .al 2 0 1) := by decide
theorem test_decode_qdsub : decodeTableWord 32 0xE1620051 = some (.qdsub .al 2 0 1) := by decide
theorem test_decode_bx : decodeTableWord 32 0xE12FFF11 = some (.bx .al 1) := by decide
theorem test_decode_blxReg : decodeTableWord 32 0xE12FFF32 = some (.blxReg .al 2) := by decide
theorem test_decode_clz : decodeTableWord 32 0xE16F0F11 = some (.clz .al 0 1) := by decide
theorem test_decode_mrs : decodeTableWord 32 0xE14F0000 = some (.mrs .al true 0) := by decide
theorem test_decode_msrReg : decodeTableWord 32 0xE121F000 = some (.msrReg .al false 1 0) := by decide
theorem test_decode_msrImm : decodeTableWord 32 0xE328F4F0 = some (.msrImm .al false 8 4 0xF0) := by decide
theorem test_decode_movImm : decodeTableWord 32 0xE3B004FF = some (.movImm .al true 0 4 0xFF) := by decide
theorem test_decode_movShiftImm : decodeTableWord 32 0xE1B00261 = some (.movShiftImm .al true 0 4 .ror 1) := by decide
theorem test_decode_movShiftReg : decodeTableWord 32 0xE1A00231 = some (.movShiftReg .al false 0 2 .lsr 1) := by
  decide
theorem test_decode_addImm : decodeTableWord 32 0xE28F0008 = some (.addImm .al false 15 0 0 8) := by decide
theorem test_decode_addShiftImm : decodeTableWord 32 0xE0810102 = some (.addShiftImm .al false 1 0 2 .lsl 2) := by
  decide
theorem test_decode_addShiftReg : decodeTableWord 32 0xE0910352 = some (.addShiftReg .al true 1 0 3 .asr 2) := by
  decide
theorem test_decode_subImm : decodeTableWord 32 0xE25EF008 = some (.subImm .al true 14 15 0 8) := by decide
theorem test_decode_subShiftImm : decodeTableWord 32 0xE0510002 = some (.subShiftImm .al true 1 0 0 .lsl 2) := by
  decide
theorem test_decode_subShiftReg : decodeTableWord 32 0xE0410312 = some (.subShiftReg .al false 1 0 3 .lsl 2) := by
  decide
theorem test_decode_orrImm : decodeTableWord 32 0xE38000C0 = some (.orrImm .al false 0 0 0 0xC0) := by decide
theorem test_decode_orrShiftImm : decodeTableWord 32 0xE19100A2 = some (.orrShiftImm .al true 1 0 1 .lsr 2) := by
  decide
theorem test_decode_orrShiftReg : decodeTableWord 32 0xE1810372 = some (.orrShiftReg .al false 1 0 3 .ror 2) := by
  decide

/-- Row of 95_test_vectors.md: a reserved opcode_3 (row G5). -/
theorem test_refused_opcode3 : decodeTableWord 32 0xEE212011 = none := by decide
/-- Row of 95_test_vectors.md: row G6. -/
theorem test_refused_acc_field : decodeTableWord 32 0xEE202031 = none := by decide
/-- Row of 95_test_vectors.md: row T5. -/
theorem test_refused_odd_ldrd : decodeTableWord 32 0xE1C130D0 = none := by decide
/-- Row of 95_test_vectors.md: row A13. -/
theorem test_refused_acc_access : decodeTableWord 32 0xEC410001 = none := by decide
/-- Row of 95_test_vectors.md: row A14. -/
theorem test_refused_acc_reserved : decodeTableWord 32 0xEC410010 = none := by decide

/-! ## Sizes and attributes -/

/-- Rules R6, R54: 32 sets of 32 ways of one 32-byte line are the 32 Kbytes of the instruction cache. -/
theorem test_instruction_cache_geometry :
    Config.instructionCacheSets * Config.instructionCacheWays * Config.cacheLineBytes
      = Config.instructionCacheBytes := by decide
/-- Rules R6, R50: both TLBs have the stated number of entries. -/
theorem test_tlb_size : State.reset.itlb.entries.size = Config.tlbEntries
    ∧ State.reset.dtlb.entries.size = Config.tlbEntries := by decide
/-- Rules R37, R106: X = 0, C = 0, B = 1 coalesces, unless K = 1. -/
theorem test_coalescing : dataPolicy ⟨false, false, true, false⟩ 0 = some (.buffered true)
    ∧ dataPolicy ⟨false, false, true, false⟩ 1 = some (.buffered false) := by decide
/-- Rules R37, R95: a table walk presents bit 1 of the Auxiliary Control Register. -/
theorem test_walk_presents_p : (tableRead 2 0x4000).p = true ∧ (tableRead 1 0x4000).p = false := by decide

/-! ## One step

The state of part D of 95_test_vectors.md: one instruction at `0x8000` in Supervisor mode, coprocessor 0 open, four
words of data at `0x9000`, the MMU off. -/

/-- The data of rows L11 to L24 and T1 to T8. -/
def data : List Host.Cell :=
  Memory.writeWord (Memory.writeWord (Memory.writeWord (Memory.writeWord [] 0x9000 0x11223344) 0x9004 0x55667788)
    0x9008 0x99AABBCC) 0x900C 0xDDEEFF00

/-- A word to run, the four lowest registers, the condition flags. -/
def demo (w : Nat) (r0 r1 r2 r3 : Word) (nzcv : Word) : State :=
  State.withFetchWord { State.reset with
    pc := 0x8000
    cpsr := 0x13 ||| (nzcv <<< 28)
    gpr := (((State.reset.gpr.set 0 r0).set 1 r1).set 2 r2).set 3 r3
    eff := { Cp15.reset with cpar := 1 }
    cp15 := { Cp15.reset with cpar := 1 }
    mem := data } 32 w

/-- What a step leaves, where it ends in a next state. -/
def after {α : Type} (s : State) (f : State → α) : Option α :=
  match step s with
  | .next t => some (f t)
  | .fault _ => none
  | .refused _ => none

/-- N, Z, C and V. -/
def nzcv (t : State) : Word := t.cpsr >>> 28

/-- Row T7. -/
theorem test_pldImm :
    after (demo 0xF551F020 0 0x9020 0 0 0) (fun t => (t.gpr[1], t.pc)) = some (0x9020, 0x8004) := by decide
/-- Row T8. -/
theorem test_pldReg :
    after (demo 0xF7D1F102 0 0x9000 1 0 0) (fun t => (t.gpr[1], t.pc)) = some (0x9000, 0x8004) := by decide
/-- Row J9, rule R303; its T bit is the state the model enters (log 15). -/
theorem test_blxImm :
    after (demo 0xFA00003E 0 0 0 0 0) (fun t => (t.pc, t.gpr[25], t.thumb)) = some (0x8100, 0x8004, true) := by decide
/-- Row M11. -/
theorem test_mia :
    after (demo 0xEE202011 0 0x12345678 0x9ABCDEF0 0 0) (fun t => t.acc0) = some 0xD6242D2080 := by decide
/-- Row G1. -/
theorem test_mia_condition :
    after (demo 0x1E204013 0 0 0 2 4) (fun t => (t.acc0, t.pc)) = some (0, 0x8004) := by decide
/-- Row H9. -/
theorem test_miaph :
    after (demo 0xEE282011 0 0x12345678 0x9ABCDEF0 0 0) (fun t => t.acc0) = some 0xFFEDA1C6B0 := by decide
/-- Row X4. -/
theorem test_miabb :
    after (demo 0xEE2C2011 0 0x12345678 0x9ABCDEF0 0 0) (fun t => t.acc0) = some 0xFFF4D52080 := by decide
/-- Row X4. -/
theorem test_miabt :
    after (demo 0xEE2D2011 0 0x12345678 0x9ABCDEF0 0 0) (fun t => t.acc0) = some 0xFFDDCBB020 := by decide
/-- Row X4. -/
theorem test_miatb :
    after (demo 0xEE2E2011 0 0x12345678 0x9ABCDEF0 0 0) (fun t => t.acc0) = some 0xFFFDA628C0 := by decide
/-- Row X4. -/
theorem test_miatt :
    after (demo 0xEE2F2011 0 0x12345678 0x9ABCDEF0 0 0) (fun t => t.acc0) = some 0xFFF8CCA630 := by decide
/-- Row A2. -/
theorem test_mar :
    after (demo 0xEC410000 0x12345678 0xABCDEF9A 0 0 0) (fun t => t.acc0) = some 0x9A12345678 := by decide
/-- Row A4. -/
theorem test_mra :
    after { demo 0xEC510000 0x0000DEAD 0x0000BEEF 0 0 0 with acc0 := 0x80000000FF } (fun t => (t.gpr[0], t.gpr[1]))
      = some (0x000000FF, 0xFFFFFF80) := by decide
/-- Row A16. -/
theorem test_mcrr :
    after (demo 0xEC410F00 0 0 0 0 0) (fun t => (t.pc, t.gpr[29], t.mode)) = some (0x04, 0x8004, Mode.und) := by
      decide
/-- Rule R203. -/
theorem test_mrrc :
    after (demo 0xEC5123A4 0 0 0 0 0) (fun t => (t.pc, t.gpr[29], t.mode)) = some (0x04, 0x8004, Mode.und) := by
      decide
/-- Section A.3, Example 3-4. -/
theorem test_mcr :
    after (demo 0xEE010F10 0x80000401 0 0 0 0) (fun t => (t.cp15.control, t.eff.control, t.pending))
      = some (0x80000479, 0x78, [.setControl 0x80000479]) := by decide
/-- Rules R71, R409: B changes after a byte access. -/
theorem test_mcr_byte_order :
    step { demo 0xEE010F10 0xF8 0 0 0 0 with subWord := true } = .refused .byteOrderChange := rfl
/-- Rule R245. -/
theorem test_mrc :
    after { demo 0xEE120F10 1 0 0 0 0 with cp15 := { Cp15.reset with ttb := 0x4000 } } (fun t => t.gpr[0]) = some
      0x4000 := by decide
/-- Row J4. -/
theorem test_b :
    after (demo 0x1AFFFFF9 0 0 0 0 0) (fun t => t.pc) = some 0x7FEC := by decide
/-- Row J3. -/
theorem test_bl :
    after (demo 0xEB00003E 0 0 0 0 0) (fun t => (t.pc, t.gpr[25])) = some (0x8100, 0x8004) := by decide
/-- Row E2, from Supervisor mode. -/
theorem test_swi :
    after (demo 0xEF123456 0 0 0 0 0) (fun t => (t.pc, t.gpr[25], t.spsrSvc, t.cpsr)) = some (0x08, 0x8004, 0x13,
      0x93) := by decide
/-- Row L14. -/
theorem test_ldrImm :
    after (demo 0xE5B10008 0 0x9000 0 0 0) (fun t => (t.gpr[0], t.gpr[1])) = some (0x99AABBCC, 0x9008) := by decide
/-- Row L16. -/
theorem test_ldrReg :
    after (demo 0xE7910102 0 0x9000 3 0 0) (fun t => (t.gpr[0], t.gpr[1])) = some (0xDDEEFF00, 0x9000) := by decide
/-- Row L19. -/
theorem test_strImm :
    after (demo 0xE4010004 0xCAFEBABE 0x9008 0 0 0) (fun t => (t.gpr[1], Memory.readWord t.mem 0x9008)) = some
      (0x9004, 0xCAFEBABE) := by decide
/-- Rules R149, R281: base minus Rm rotated right by 6, written back. -/
theorem test_strReg :
    after (demo 0xE7210363 0xCAFEBABE 0x9010 0 0x200 0) (fun t => (t.gpr[1], Memory.readWord t.mem 0x9008)) = some
      (0x9008, 0xCAFEBABE) := by decide
/-- Row B21. -/
theorem test_mla :
    after (demo 0xE0303291 1 0x00010000 0x00010000 0 3) (fun t => (t.gpr[0], nzcv t)) = some (0, 7) := by decide
/-- Row L20. -/
theorem test_swp :
    after (demo 0xE1010092 0 0x9004 0xDEADBEEF 0 0) (fun t => (t.gpr[0], Memory.readWord t.mem 0x9004)) = some
      (0x55667788, 0xDEADBEEF) := by decide
/-- Row L21. -/
theorem test_swpb :
    after (demo 0xE1410092 0 0x9001 0xAB 0 0) (fun t => (t.gpr[0], Memory.readWord t.mem 0x9000)) = some (0x33,
      0x1122AB44) := by decide
/-- Row O3, B = 1. -/
theorem test_swpb_big_endian :
    after { demo 0xE1410092 0 0x9001 0xAB 0 0 with eff := { Cp15.reset with control := 0xF8 } } (fun t => (t.gpr[0],
      Memory.readWord t.mem 0x9000)) = some (0x22, 0x11AB3344) := by decide
/-- Row L23. -/
theorem test_ldrshImm :
    after (demo 0xE1D100F2 0 0x9008 0 0 0) (fun t => t.gpr[0]) = some 0xFFFF99AA := by decide
/-- Row O7, B = 1. -/
theorem test_ldrshImm_big_endian :
    after { demo 0xE1D100F2 0 0x9008 0 0 0 with eff := { Cp15.reset with control := 0xF8 } } (fun t => t.gpr[0]) =
      some 0xFFFFBBCC := by decide
/-- Row L24. -/
theorem test_ldrshReg :
    after (demo 0xE19100F2 0 0x9000 2 0 0) (fun t => t.gpr[0]) = some 0x1122 := by decide
/-- Row T2. -/
theorem test_ldrdImm :
    after (demo 0xE1E120D8 0 0x9000 0 0 0) (fun t => (t.gpr[2], t.gpr[3], t.gpr[1])) = some (0x99AABBCC, 0xDDEEFF00,
      0x9008) := by decide
/-- Row T4, with A = 0. -/
theorem test_ldrdImm_alignment :
    after (demo 0xE1C120D0 0 0x9004 7 8 0) (fun t => (t.gpr[2], t.far, t.pc, t.gpr[27])) = some (7, 0x9004, 0x10,
      0x8008) := by decide
/-- Rule R191. -/
theorem test_ldrdReg :
    after (demo 0xE18120D4 0 0x9008 0 0 0) (fun t => (t.gpr[2], t.gpr[3])) = some (0x99AABBCC, 0xDDEEFF00) := by
      decide
/-- Row T3. -/
theorem test_strdImm :
    after (demo 0xE0C120F8 0 0x9000 0xAAAAAAAA 0xBBBBBBBB 0) (fun t => (Memory.readWord t.mem 0x9000,
      Memory.readWord t.mem 0x9004, t.gpr[1])) = some (0xAAAAAAAA, 0xBBBBBBBB, 0x9008) := by decide
/-- Rule R192. -/
theorem test_strdReg :
    after (demo 0xE00120F4 0 0x9000 0xAAAAAAAA 0xBBBBBBBB 0) (fun t => (Memory.readWord t.mem 0x9000,
      Memory.readWord t.mem 0x9004, t.gpr[1])) = some (0xAAAAAAAA, 0xBBBBBBBB, 0x9000) := by decide
/-- Row S3, SMLATB. -/
theorem test_smla :
    after (demo 0xE10032A1 0 0x80008000 0x80008000 0x7FFFFFFF 0) (fun t => (t.gpr[0], t.q)) = some (0xBFFFFFFF,
      true) := by decide
/-- Row W2, SMLAWT. -/
theorem test_smlaw :
    after (demo 0xE12032C1 0 0x12345678 0x9ABCDEF0 0 0) (fun t => (t.gpr[0], t.q)) = some (0xF8CC83FB, false) := by
      decide
/-- Row W2, SMULWB. -/
theorem test_smulw :
    after (demo 0xE12002A1 0 0x12345678 0x9ABCDEF0 0 0) (fun t => t.gpr[0]) = some 0xFDA61D95 := by decide
/-- Row L4, SMLALBB. -/
theorem test_smlal :
    after (demo 0xE1410382 0 0x80000000 0x80007FFF 0x7FFF8000 0) (fun t => (t.gpr[1], t.gpr[0])) = some (0x7FFFFFFF,
      0xC0008000) := by decide
/-- Row U3, SMULTB. -/
theorem test_smul :
    after (demo 0xE16002A1 0 0x8000FFFF 0x80007FFF 0 0) (fun t => t.gpr[0]) = some 0xC0008000 := by decide
/-- Row Q3. -/
theorem test_qadd :
    after (demo 0xE1020051 0 0x80000000 0xFFFFFFFF 0 0) (fun t => (t.gpr[0], t.q)) = some (0x80000000, true) := by
      decide
/-- Row Q6. -/
theorem test_qsub :
    after (demo 0xE1220051 0 0 0xC0000000 0 0) (fun t => (t.gpr[0], t.q)) = some (0x40000000, false) := by decide
/-- Row Q9. -/
theorem test_qdadd :
    after (demo 0xE1420051 0 0xFFFFFFFF 0x40000000 0 0) (fun t => (t.gpr[0], t.q)) = some (0x7FFFFFFE, true) := by
      decide
/-- Row Q6. -/
theorem test_qdsub :
    after (demo 0xE1620051 0 0 0xC0000000 0 0) (fun t => (t.gpr[0], t.q)) = some (0x7FFFFFFF, true) := by decide
/-- Row J7. -/
theorem test_bx :
    after (demo 0xE12FFF11 0 0x9000 0 0 0) (fun t => (t.pc, t.thumb)) = some (0x9000, false) := by decide
/-- Rule R302. -/
theorem test_blxReg :
    after (demo 0xE12FFF32 0 0 0x9000 0 0) (fun t => (t.pc, t.gpr[25])) = some (0x9000, 0x8004) := by decide
/-- Rule R302, `Rm` = R14: R14 is written first, so the target is the address of the next instruction. -/
theorem test_blxReg_lr :
    after (demo 0xE12FFF3E 0 0 0 0 0) (fun t => (t.pc, t.gpr[25])) = some (0x8004, 0x8004) := by decide
/-- Row B25. -/
theorem test_clz :
    after (demo 0xE16F0F11 0 0x00010000 0 0 0) (fun t => t.gpr[0]) = some 0x0F := by decide
/-- Row B22. -/
theorem test_clz_zero :
    after (demo 0xE16F0F11 0 0 0 0 0) (fun t => t.gpr[0]) = some 0x20 := by decide
/-- Row K1. -/
theorem test_mrs :
    after (demo 0xE10F0000 0 0 0 0 6) (fun t => t.gpr[0]) = some 0x60000013 := by decide
/-- Row K6. -/
theorem test_mrs_spsr :
    after { demo 0xE14F0000 0 0 0 0 0 with cpsr := 0x17, spsrAbt := 0x17 } (fun t => t.gpr[0]) = some 0x17 := by
      decide
/-- Row K3. -/
theorem test_msrReg :
    after (demo 0xE121F000 0x600000D3 0 0 0 6) (fun t => t.cpsr) = some 0x600000D3 := by decide
/-- Row K4. -/
theorem test_msrReg_user :
    after { demo 0xE121F000 0x600000D3 0 0 0 0 with cpsr := 0x60000010 } (fun t => t.cpsr) = some 0x60000010 := by
      decide
/-- Row K5. -/
theorem test_msrImm :
    after { demo 0xE328F4F0 0 0 0 0 0 with cpsr := 0x10 } (fun t => t.cpsr) = some 0xF0000010 := by decide
/-- Row B13. -/
theorem test_movImm :
    after (demo 0xE3B004FF 0 0 0 0 0) (fun t => (t.gpr[0], nzcv t)) = some (0xFF000000, 0b1010) := by decide
/-- Row B16. -/
theorem test_movShiftImm :
    after (demo 0xE1B00061 0 3 0 0 2) (fun t => (t.gpr[0], nzcv t)) = some (0x80000001, 0b1010) := by decide
/-- Rule R148, form (c): LSR by 32 writes 0. -/
theorem test_movShiftReg :
    after (demo 0xE1A00231 1 0x80000000 0x120 0 0) (fun t => t.gpr[0]) = some 0 := by decide
/-- Row B5. -/
theorem test_addImm :
    after (demo 0xE28F0008 0 0 0 0 0) (fun t => t.gpr[0]) = some 0x8010 := by decide
/-- Row B3. -/
theorem test_addShiftImm :
    after (demo 0xE0910002 0 0x80000000 0x80000000 0 0) (fun t => (t.gpr[0], nzcv t)) = some (0, 0b0111) := by decide
/-- Rules R148, R271: R1 plus R2 ASR R3. -/
theorem test_addShiftReg :
    after (demo 0xE0910352 0 1 0xFFFFFFF0 4 0) (fun t => (t.gpr[0], nzcv t)) = some (0, 0b0110) := by decide
/-- Row E15. -/
theorem test_subImm :
    after { demo 0xE25EF008 0 0 0 0 0 with cpsr := 0x97, spsrAbt := 0x13, gpr := State.reset.gpr.set 27 0x8028 }
      (fun t => (t.pc, t.cpsr)) = some (0x8020, 0x13) := by decide
/-- Row B8. -/
theorem test_subShiftImm :
    after (demo 0xE0510002 0 0x80000000 1 0 0) (fun t => (t.gpr[0], nzcv t)) = some (0x7FFFFFFF, 0b0011) := by decide
/-- Rules R148, R273: R1 minus R2 LSL R3. -/
theorem test_subShiftReg :
    after (demo 0xE0410312 0 0x10 1 3 0) (fun t => t.gpr[0]) = some 8 := by decide
/-- Row K2. -/
theorem test_orrImm :
    after (demo 0xE38000C0 0x60000013 0 0 0 0) (fun t => t.gpr[0]) = some 0x600000D3 := by decide
/-- Row B11. -/
theorem test_orrShiftImm :
    after (demo 0xE19100A2 0 0 3 0 0) (fun t => (t.gpr[0], nzcv t)) = some (1, 0b0010) := by decide
/-- Rules R148, R272: R1 or R2 ROR R3. -/
theorem test_orrShiftReg :
    after (demo 0xE1810372 0 0x0F000000 0xF 4 0) (fun t => t.gpr[0]) = some 0xFF000000 := by decide
/-! ## Exceptions and interrupts -/

/-- Row E1: the gate is shut. -/
theorem test_undefined :
    after { demo 0xEE202011 0 0 0 0 0 with cpsr := 0x60000010, eff := Cp15.reset } (fun t => (t.gpr[29], t.spsrUnd,
      t.cpsr, t.pc)) = some (0x8004, 0x60000010, 0x6000009B, 0x04) := by decide
/-- Row E4: A = 1. -/
theorem test_alignment_abort :
    after { demo 0xE5910000 0 0x9002 0 0 0 with eff := { Cp15.reset with control := 0x7A } } (fun t => (t.gpr[27],
      t.far, t.pc, t.cpsr)) = some (0x8008, 0x9002, 0x10, 0x97) := by decide
/-- Row E11. -/
theorem test_irq :
    after { demo 0xE1A00000 0 0 0 0 0 with cpsr := 0x20000010, env := [{ Env.quiet with irq := true }] } (fun t =>
      (t.gpr[23], t.spsrIrq, t.cpsr, t.pc)) = some (0x8004, 0x20000010, 0x20000092, 0x18) := by decide
/-- Row E12. -/
theorem test_fiq :
    after { demo 0xE1A00000 0 0 0 0 0 with cpsr := 0x20000010, env := [{ Env.quiet with fiq := true, irq := true }]
      } (fun t => (t.gpr[21], t.spsrFiq, t.cpsr, t.pc)) = some (0x8004, 0x20000010, 0x200000D1, 0x1C) := by decide
/-- Row E13. -/
theorem test_irq_masked :
    after { demo 0xE1A00000 0 0 0 0 0 with cpsr := 0x93, env := [{ Env.quiet with irq := true }] } (fun t => t.pc) =
      some 0x8004 := by decide

/-! ## Witnesses: for each statement with hypotheses, a state and operands that meet them -/

/-- A state of a mode, every other field as after reset. -/
def inMode (m : Mode) : State := { State.reset with cpsr := m.toBits.setWidth 32 }

/-- Supervisor mode with coprocessor 0 open and R0 to R3 given. -/
def regs (r0 r1 r2 r3 : Word) : State := { State.reset with
  gpr := (((State.reset.gpr.set 0 r0).set 1 r1).set 2 r2).set 3 r3
  eff := { Cp15.reset with cpar := 1 } }

/-- The MMU on in effect, with a memory and a domain access control value. -/
def mapped (m : List Host.Cell) (dacr : Word) : State := { State.reset with
  mem := m
  eff := { Cp15.reset with control := 0x79, dacr := dacr } }

/-- A first-level table at 0 whose first descriptor maps a section with AP = `0b11`, domain 0, at `0x00100000`. -/
def sectionTable : List Host.Cell := Memory.writeWord [] 0 0x00100C02

/-- One environment entry. -/
def facing (e : Env) (s : State) : State := { s with env := [e] }

theorem witness_DecodeAndEncodeAgree : (Instr.mcrr .al 15 15 15 15 15).encodable = true
    ∧ (Instr.strdReg .le .preIndexed true 15 14 15).encodable = true
    ∧ decodeWord 0xE1A00000 = .ok (.movShiftImm .al false 0 0 .lsl 0) := ⟨rfl, rfl, rfl⟩

/-- The three instructions of CPWAIT at 0, and a CP15 write pending. -/
def cpwaitStart : State := { State.reset with
  mem := Memory.writeWord (Memory.writeWord (Memory.writeWord [] 0 0xEE120F10) 4 0xE1A00000) 8 0xE24FF004
  cp15 := { Cp15.reset with dacr := 1 }
  pending := [.setDacr 1] }

/-- A state one quiet step later. -/
def next (s : State) : State :=
  match step s with
  | .next t => t
  | .fault _ => s
  | .refused _ => s

/-- A state after its fetch, the MMU off. -/
def begun (s : State) : State := s.ageOwed

theorem cpwait_runs_mrc : Runs cpwaitStart cpwaitMrc (begun cpwaitStart) :=
  ⟨rfl, cpwaitStart, rfl, by decide, rfl, rfl, 0xEE120F10, rfl, rfl⟩
theorem cpwait_runs_mov : Runs (next cpwaitStart) cpwaitMov (begun (next cpwaitStart)) :=
  ⟨by decide, next cpwaitStart, rfl, by decide, rfl, by decide, 0xE1A00000, rfl, rfl⟩
theorem cpwait_runs_sub : Runs (next (next cpwaitStart)) cpwaitSub (begun (next (next cpwaitStart))) :=
  ⟨by decide, next (next cpwaitStart), rfl, by decide, rfl, by decide, 0xE24FF004, rfl, rfl⟩

theorem witness_CpwaitCompletes : cpwaitStart.Cp15Agrees ∧ (begun cpwaitStart).privileged = true
    ∧ Runs cpwaitStart cpwaitMrc (begun cpwaitStart) ∧ step cpwaitStart = .next (next cpwaitStart)
    ∧ Runs (next cpwaitStart) cpwaitMov (begun (next cpwaitStart))
    ∧ step (next cpwaitStart) = .next (next (next cpwaitStart))
    ∧ Runs (next (next cpwaitStart)) cpwaitSub (begun (next (next cpwaitStart)))
    ∧ step (next (next cpwaitStart)) = .next (next (next (next cpwaitStart))) :=
  ⟨rfl, by decide, cpwait_runs_mrc, rfl, cpwait_runs_mov, rfl, cpwait_runs_sub, rfl⟩

/-- CPWAIT's last instruction with one pending effect: the first lands, the second finds its translation resident. -/
def endingCpwait (e : Cp15Effect) (l : Tlb) : State := { State.reset with
  mem := Memory.writeWord [] 0 0xE24FF004
  cpwait := .afterMov
  itlb := l
  pending := [e] }

/-- A TLB whose entry 0 maps the first section. -/
def residentTlb : Tlb := { Tlb.reset with entries := Tlb.reset.entries.set 0 (sectionEntry 0x00100C02 0) }

theorem witness_StepRunsDecoded_runs : Runs cpwaitStart cpwaitMrc (begun cpwaitStart)
    ∧ ∃ t, exec cpwaitMrc (begun cpwaitStart) = .next t ∧ ¬ (cpwaitMrc = cpwaitSub
      ∧ (begun cpwaitStart).cpwait = .afterMov) := ⟨cpwait_runs_mrc, _, rfl, by decide⟩

/-- A word at 0, R1 given. -/
def running (w r1 : Word) : State := { regs 0 r1 0 0 with mem := Memory.writeWord [] 0 w }

theorem witness_StepRunsDecoded_fault :
    Runs (running 0xE5910000 0xFFFFFFFE) (.ldrImm .al .offset true 1 0 0) (begun (running 0xE5910000 0xFFFFFFFE))
      ∧ exec (.ldrImm .al .offset true 1 0 0) (begun (running 0xE5910000 0xFFFFFFFE)) = .fault .accessWraps :=
  ⟨⟨rfl, running 0xE5910000 0xFFFFFFFE, rfl, by decide, rfl, rfl, 0xE5910000, rfl, rfl⟩, rfl⟩

theorem witness_StepRunsDecoded_refused :
    Runs (running 0xE12FFF11 2) (.bx .al 1) (begun (running 0xE12FFF11 2))
      ∧ exec (.bx .al 1) (begun (running 0xE12FFF11 2)) = .refused .unalignedBranch :=
  ⟨⟨rfl, running 0xE12FFF11 2, rfl, by decide, rfl, rfl, 0xE12FFF11, rfl, rfl⟩, rfl⟩

theorem witness_StepRunsDecoded_landed :
    Runs (endingCpwait (.setDacr 1) Tlb.reset) cpwaitSub (begun (endingCpwait (.setDacr 1) Tlb.reset))
      ∧ (begun (endingCpwait (.setDacr 1) Tlb.reset)).cpwait = .afterMov
      ∧ ∃ t v, exec cpwaitSub (begun (endingCpwait (.setDacr 1) Tlb.reset)) = .next t
        ∧ landPending t.pending.length { t with cpwait := .idle } = some v :=
  ⟨⟨rfl, endingCpwait (.setDacr 1) Tlb.reset, rfl, by decide, rfl, rfl, 0xE24FF004, rfl, rfl⟩, rfl, _, _, rfl, rfl⟩

theorem witness_StepRunsDecoded_resident :
    Runs (endingCpwait (.lock .instruction 0 TlbEntry.empty) residentTlb) cpwaitSub
        (begun (endingCpwait (.lock .instruction 0 TlbEntry.empty) residentTlb))
      ∧ ∃ t, exec cpwaitSub (begun (endingCpwait (.lock .instruction 0 TlbEntry.empty) residentTlb)) = .next t
        ∧ landPending t.pending.length { t with cpwait := .idle } = none :=
  ⟨⟨rfl, endingCpwait (.lock .instruction 0 TlbEntry.empty) residentTlb, rfl, by decide, rfl, rfl, 0xE24FF004, rfl,
    rfl⟩, _, rfl, rfl⟩

/-- The environment gives a stale word to the fetch, the program having stored to that word or not. -/
def staleFetching (stored : List Nat) : State :=
  { facing { Env.quiet with staleFetch := some 0xE12FFF11 } (running 0xE1A00000 0) with stored := stored }

theorem witness_StepRunsDecoded_fetch : ∃ t a,
    translate .instruction false 0 (staleFetching [0]) = .ok t 0 a ∧ (staleFetching [0]).now.fetchError = false
    ∧ (staleFetching [0]).now.fetchParity = false ∧ (staleFetching [0]).fetch = .word t 0xE12FFF11
    ∧ FetchReads (staleFetching [0]) 0 0xE12FFF11 :=
  ⟨_, _, rfl, rfl, rfl, rfl, fun h => absurd (by decide : 0 ∈ (staleFetching [0]).stored) h, (nofun),
    fun x _ h => by injection h⟩
theorem witness_StepRunsDecoded_unstored : ∃ t, (staleFetching []).fetch = .word t 0xE1A00000 := ⟨_, rfl⟩

theorem witness_StepsWithoutMeaning_undecodable : (running 0xFFFFFFFF 0).pastTop = false
    ∧ landPending (running 0xFFFFFFFF 0).now.land (running 0xFFFFFFFF 0) = some (running 0xFFFFFFFF 0)
    ∧ psrMode (running 0xFFFFFFFF 0).cpsr ≠ none ∧ (running 0xFFFFFFFF 0).boundaryException = none
    ∧ (running 0xFFFFFFFF 0).thumb = false
    ∧ (running 0xFFFFFFFF 0).ageOwed.fetch = .word (running 0xFFFFFFFF 0) 0xFFFFFFFF
    ∧ decodeWord 0xFFFFFFFF = .error .unconditionalSpace := ⟨rfl, rfl, by decide, rfl, rfl, rfl, rfl⟩

theorem witness_StepsWithoutMeaning_top : ({ State.reset with pastTop := true } : State).pastTop = true := rfl

theorem witness_StepsWithoutMeaning_thumb : (inMode .usr).pastTop = false
    ∧ landPending 0 { inMode .usr with cpsr := 0x30 } = some { inMode .usr with cpsr := 0x30 }
    ∧ psrMode 0x30 ≠ none ∧ ({ inMode .usr with cpsr := 0x30 } : State).boundaryException = none
    ∧ ({ inMode .usr with cpsr := 0x30 } : State).thumb = true := ⟨rfl, rfl, by decide, rfl, rfl⟩

/-- A step that stores, from a state that meets every invariant. -/
def storing : State := State.withFetchWord (regs 7 0x9000 0 0) 32 0xE5810004

theorem witness_StepKeepsMemoryCanonical : step storing = .next (next storing) ∧ storing.MemoryCanonical :=
  ⟨rfl, by unfold State.MemoryCanonical; decide⟩
theorem witness_StepKeepsTlbsOrdered : step storing = .next (next storing) ∧ storing.TlbsOrdered :=
  ⟨rfl, by unfold State.TlbsOrdered Tlb.Ordered; decide⟩
theorem witness_StepKeepsControl : step cpwaitStart = .next (next cpwaitStart) ∧ cpwaitStart.Cp15Agrees
    ∧ cpwaitStart.ControlsLegal :=
  ⟨rfl, rfl, ⟨rfl, fun _ => rfl⟩, ⟨rfl, fun _ => rfl⟩, fun v h => by
    rcases List.mem_singleton.1 h with h
    cases h⟩
theorem witness_StepKeepsModeAndPc : step storing = .next (next storing) ∧ storing.ModeLegal ∧ storing.PcAligned :=
  ⟨rfl, by unfold State.ModeLegal; decide, by unfold State.PcAligned; decide⟩

theorem witness_ConditionCodesGovernExecution : (Instr.mia .eq 0 1).condition = some .eq
    ∧ conditionPassed .eq (regs 0 0 0 0) = false := by decide

theorem witness_UnpredictableRegistersRefused : (Instr.mar .al 15 0).predictable = false
    ∧ (∀ c, (Instr.mar .al 15 0).condition = some c → conditionPassed c (regs 0 0 0 0) = true)
    ∧ ((Instr.mar .al 15 0).accessesCoprocessor0 = true → (regs 0 0 0 0).eff.cpar.getLsbD 0 = true)
    ∧ ((Instr.mar .al 15 0).accessesCoprocessor15 = true → (regs 0 0 0 0).privileged = true) :=
  ⟨rfl, fun c h => by injection h with h; rw [← h]; rfl, by decide, by decide⟩
theorem witness_UnpredictableRegistersRefused_cp15 : (Instr.mcr .al 1 15 0 0).predictable = false
    ∧ conditionPassed .al State.reset = true ∧ (Instr.mcr .al 1 15 0 0).accessesCoprocessor0 = false
    ∧ (Instr.mcr .al 1 15 0 0).accessesCoprocessor15 = true ∧ State.reset.privileged = true := by decide
theorem witness_UnpredictableRegistersRefused_user : (Instr.mrs .al false 15).predictable = false
    ∧ conditionPassed .al (inMode .usr) = true ∧ (inMode .usr).privileged = false
    ∧ (Instr.mrs .al false 15).accessesCoprocessor0 = false
    ∧ (Instr.mrs .al false 15).accessesCoprocessor15 = false := by decide

theorem witness_MiaAndMiaphAccumulateProducts :
    conditionPassed .al (regs 0 0 0 0) = true ∧ (regs 0 0 0 0).eff.cpar.getLsbD 0 = true
    ∧ (14 : Reg) ≠ Reg.pc ∧ (0 : Reg) ≠ Reg.pc ∧ ((15 : Reg) = Reg.pc ∨ (0 : Reg) = Reg.pc) := by decide
theorem witness_MiaHalvesAccumulateProduct : (Instr.miatt .al 14 0 = .miatt .al 14 0 ∧ 16 = 16 ∧ 16 = 16)
    ∧ conditionPassed .al (regs 0 0 0 0) = true ∧ (regs 0 0 0 0).eff.cpar.getLsbD 0 = true
    ∧ (14 : Reg) ≠ Reg.pc ∧ (0 : Reg) ≠ Reg.pc := by decide
theorem witness_MarAndMraMoveAccumulator :
    conditionPassed .al (regs 0 0 0 0) = true ∧ (regs 0 0 0 0).eff.cpar.getLsbD 0 = true
    ∧ (14 : Reg) ≠ Reg.pc ∧ (0 : Reg) ≠ Reg.pc ∧ (14 : Reg) ≠ 0 := by decide
theorem witness_AccumulatorRoundTrips_mra : ∃ t u, (1 : Reg) ≠ Reg.pc ∧ (0 : Reg) ≠ Reg.pc ∧ (1 : Reg) ≠ 0
    ∧ (regs 5 6 0 0).eff.cpar.getLsbD 0 = true ∧ exec (.mra .al 1 0) (regs 5 6 0 0) = .next t
    ∧ exec (.mar .al 1 0) t = .next u := ⟨_, _, by decide, by decide, by decide, by decide, rfl, rfl⟩
theorem witness_AccumulatorRoundTrips_mar : ∃ t u, (regs 5 6 0 0).eff.cpar.getLsbD 0 = true
    ∧ exec (.mar .al 1 0) (regs 5 6 0 0) = .next t ∧ exec (.mra .al 1 0) t = .next u :=
  ⟨_, _, by decide, rfl, rfl⟩
theorem witness_AccumulatorGateTraps : Instr.mra .al 1 0 ∈ [Instr.mia .al 1 0, .miaph .al 1 0, .miabb .al 1 0,
      .miabt .al 1 0, .miatb .al 1 0, .miatt .al 1 0, .mar .al 1 0, .mra .al 1 0]
    ∧ conditionPassed .al State.reset = true ∧ State.reset.eff.cpar.getLsbD 0 = false := by decide

theorem witness_ShifterOperandBitByBit :
    ((31 : BitVec 5) ≠ 0 ∨ Shift.ror = .lsl) ∧ ((0 : BitVec 5) ≠ 0 ∨ Shift.lsl = .lsl)
    ∧ (Shift.asr = .lsr ∨ Shift.asr = .asr) ∧ 31 < 32 := by decide
theorem witness_MovAndOrrGiveResultAndFlags_imm :
    (∃ rot imm, Instr.movImm .al true 14 15 255 = .movImm .al true 14 rot imm
      ∧ immediateOperand 15 255 (regs 0 0 0 0).c = immediateOperand rot imm (regs 0 0 0 0).c)
    ∧ conditionPassed .al (regs 0 0 0 0) = true ∧ (14 : Reg) ≠ Reg.pc := ⟨⟨_, _, rfl, rfl⟩, rfl, by decide⟩
theorem witness_MovAndOrrGiveResultAndFlags_reg :
    (∃ rs sh rm, Instr.orrShiftReg .al true 1 0 3 .ror 2 = .orrShiftReg .al true 1 0 rs
  sh rm
      ∧ shiftByRegister .ror 2 32 false
        = shiftByRegister sh ((regs 0 0 2 32).reg rm) ((regs 0 0 2 32).reg rs) (regs 0 0 2 32).c
      ∧ (1 : Reg) ≠ Reg.pc ∧ rs ≠ Reg.pc ∧ rm ≠ Reg.pc)
    ∧ conditionPassed .al (regs 0 0 2 32) = true ∧ (0 : Reg) ≠ Reg.pc :=
  ⟨⟨3, .ror, 2, rfl, rfl, by decide, by decide, by decide⟩, rfl, by decide⟩
theorem witness_AddAndSubGiveResultAndFlags :
    (∃ n sh rm, Instr.addShiftImm .al true 15 0 31 .lsl 15 = .addShiftImm .al true 15 0 n sh
  rm
      ∧ shiftByImmediate .lsl 8 31 false = shiftByImmediate sh ((regs 0 0 0 0).reg rm) n (regs 0 0 0 0).c)
    ∧ (∃ n sh rm, Instr.subShiftImm .al true 1 0 0 .lsl 2 = .subShiftImm .al true 1 0 n sh rm
      ∧ shiftByImmediate .lsl 2 0 false = shiftByImmediate sh ((regs 0 1 2 0).reg rm) n (regs 0 1 2 0).c)
    ∧ conditionPassed .al (regs 0 0 0 0) = true ∧ (0 : Reg) ≠ Reg.pc :=
  ⟨⟨_, _, _, rfl, rfl⟩, ⟨_, _, _, rfl, rfl⟩, rfl, by decide⟩
theorem witness_DataProcessingBranchTransfers :
    (∃ rot imm, Instr.movImm .al false Reg.pc 0 4 = .movImm .al false Reg.pc rot
  imm
      ∧ (4 : Word) = (immediateOperand rot imm (regs 0 0 0 0).c).value)
    ∧ (4 : Word).toNat % 4 = 0 ∧ conditionPassed .al (regs 0 0 0 0) = true
    ∧ (∃ rot imm, Instr.movImm .al false Reg.pc 0 3 = .movImm .al false Reg.pc rot imm
      ∧ (3 : Word) = (immediateOperand rot imm (regs 0 0 0 0).c).value) ∧ (3 : Word).toNat % 4 ≠ 0 :=
  ⟨⟨0, 4, rfl, rfl⟩, rfl, rfl, ⟨0, 3, rfl, rfl⟩, by decide⟩

/-- Supervisor mode with a saved status. -/
def returning (psr : Word) : State := { inMode .svc with spsrSvc := psr }

theorem witness_ExceptionReturnRestoresStatus : conditionPassed .al (returning 0x10) = true
    ∧ (∃ rot imm, Instr.movImm .al true Reg.pc 0 4 = .movImm .al true Reg.pc rot imm
      ∧ (4 : Word) = (immediateOperand rot imm (returning 0x10).c).value)
    ∧ (returning 0x10).spsr (returning 0x10).mode = some 0x10 ∧ psrMode 0x10 = some .usr ∧ (4 : Word).toNat % 4 = 0 :=
  ⟨rfl, ⟨0, 4, rfl, rfl⟩, rfl, rfl, rfl⟩
theorem witness_ExceptionReturnRestoresStatus_thumb :
    (∃ rot imm, Instr.movImm .al true Reg.pc 0 2 = .movImm .al true Reg.pc rot imm
      ∧ (2 : Word) = (immediateOperand rot imm (returning 0x30).c).value)
    ∧ (returning 0x30).spsr (returning 0x30).mode = some 0x30 ∧ psrMode 0x30 = some .usr
    ∧ ((0x30 : Word).getLsbD 5 = true ∧ (2 : Word).toNat % 2 = 0) := ⟨⟨0, 2, rfl, rfl⟩, rfl, rfl, by decide⟩
theorem witness_ExceptionReturnRestoresStatus_stops : (inMode .usr).mode = .usr ∧ (inMode .sys).mode = .sys
    ∧ conditionPassed .al (inMode .usr) = true ∧ (returning 0).spsr (returning 0).mode = some 0 ∧ psrMode 0 = none
    ∧ (1 : Word).toNat % 2 = 1 ∧ (0x10 : Word).getLsbD 5 = false ∧ (2 : Word).toNat % 4 ≠ 0 := by decide

theorem witness_MlaGivesSumAndFlags :
    conditionPassed .al (regs 0 0 0 0) = true ∧ (0 : Reg) ≠ Reg.pc ∧ (1 : Reg) ≠ Reg.pc
    ∧ (14 : Reg) ≠ Reg.pc ∧ (0 : Reg) ≠ 14 ∧ ((1 : Reg) = Reg.pc ∨ (1 : Reg) = 1) := by decide
theorem witness_SmlaAndSmlawGiveSumAndQ : conditionPassed .al (regs 0 0 0 0) = true ∧ (0 : Reg) ≠ Reg.pc
    ∧ (14 : Reg) ≠ Reg.pc := by decide
theorem witness_SmulAndSmlalGiveProducts : conditionPassed .al (regs 0 0 0 0) = true ∧ (0 : Reg) ≠ Reg.pc
    ∧ (14 : Reg) ≠ Reg.pc ∧ (14 : Reg) ≠ 0 := by decide
theorem witness_SaturatingArithmeticClampsAndSetsQ : (Instr.qsub .al 2 0 1 = .qsub .al 2 0 1
      ∧ (-2147483649 : Int) = ((regs 0 0x80000000 1 0).reg 1).toInt - ((regs 0 0x80000000 1 0).reg 2).toInt)
    ∧ conditionPassed .al (regs 0 0x80000000 1 0) = true ∧ (2 : Reg) ≠ Reg.pc ∧ (0 : Reg) ≠ Reg.pc := by decide
theorem witness_SaturatingArithmeticClampsAndSetsQ_doubling :
    (2147483647 : Int) = max (-2147483648) (min 2147483647 (2 * ((regs 0 0 0x40000000 0).reg 2).toInt))
    ∧ (Instr.qdsub .al 2 0 1 = .qdsub .al 2 0 1 ∧ (-2147483647 : Int) = ((regs 0 0 0x40000000 0).reg 1).toInt -
      2147483647)
    ∧ conditionPassed .al (regs 0 0 0x40000000 0) = true := by decide
theorem witness_ClzCountsLeadingZeros :
    conditionPassed .al (regs 0 0x80000000 0 0) = true ∧ ((15 : Reg) = Reg.pc ∨ (0 : Reg) = Reg.pc)
    ∧ (0 : Reg) ≠ Reg.pc ∧ (regs 0 0x80000000 0 0).reg 2 = 0
    ∧ ((regs 0 0x80000000 0 0).reg 1).getLsbD 31 = true := by decide
theorem witness_ClzCountsLeadingZeros_highest : ∀ j, 31 < j → ((regs 0 0x80000000 0 0).reg 1).getLsbD j = false :=
  fun _ h => BitVec.getLsbD_of_ge _ _ h
theorem witness_FlagsChangeOnlyByTheirWriters : ∃ t, exec (.clz .al 0 1) (regs 0 0 0 0) = .next t
    ∧ (Instr.clz .al 0 1).writesConditionFlags = false ∧ (Instr.clz .al 0 1).writesStatus = false :=
  ⟨_, rfl, rfl, rfl⟩
theorem witness_FlagsChangeOnlyByTheirWriters_q :
    ∃ t, exec (.qadd .al 0 1 2) { regs 0 0 0 0 with cpsr := 0x08000013 } = .next t
      ∧ (Instr.qadd .al 0 1 2).writesStatus = false ∧ ({ regs 0 0 0 0 with cpsr := 0x08000013 } : State).q = true :=
  ⟨_, rfl, rfl, by decide⟩

theorem witness_BranchAndLinkTransfer : conditionPassed .al (regs 0 0 0 0) = true
    ∧ ((0xFE000008 : Word).toNat : Int) = ((regs 0 0 0 0).pc.toNat + 8 + 4 * (0x800000 : BitVec 24).toInt) %
      4294967296 := by
  decide
theorem witness_BranchAndExchangeSetT :
    (Instr.blxReg .al 1 = .blxReg .al 1 ∧ [Reg.lr] = [Reg.lr] ∧ (1 : Reg) ≠ Reg.pc
      ∧ (2 : Word) = if (1 : Reg) = Reg.lr then (regs 0 2 1 0).pc + 4 else (regs 0 2 1 0).reg 1)
    ∧ (Instr.bx .al 1 = .bx .al 1 ∧ ([] : List Reg) = [] ∧ (2 : Word) = (regs 0 2 1 0).reg 1)
    ∧ conditionPassed .al (regs 0 2 1 0) = true
    ∧ (2 : Word).toNat % 4 = 2 ∧ ((regs 0 2 1 0).reg 2).toNat % 4 ≠ 2 := by decide
theorem witness_BranchAndExchangeSetT_link :
    (Instr.blxReg .al 14 = .blxReg .al 14 ∧ [Reg.lr] = [Reg.lr] ∧ (14 : Reg) ≠ Reg.pc
      ∧ (4 : Word) = if (14 : Reg) = Reg.lr then State.reset.pc + 4 else State.reset.reg 14)
    ∧ conditionPassed .al State.reset = true ∧ (4 : Word).toNat % 4 ≠ 2 := by decide
theorem witness_SoftwareInterruptAndTwoRegisterTraps : conditionPassed .al (inMode .usr) = true
    ∧ (Instr.mrrc .al 0 0 1 0 0 = .mcrr .al 0 0 1 0 0 ∨ Instr.mrrc .al 0 0 1 0 0 = .mrrc .al 0 0 1 0 0) := by decide

theorem witness_MrsReadsStatus : conditionPassed .al (inMode .fiq) = true ∧ (14 : Reg) ≠ Reg.pc
    ∧ (inMode .fiq).spsr (inMode .fiq).mode = some 0 ∧ (inMode .usr).mode = .usr ∧ (inMode .sys).mode = .sys := by
      decide

/-- What MSR of all four fields leaves in Supervisor mode: the operand itself. -/
theorem msr_all (v : Word) (k : Nat) (hk : k < 32) : v.getLsbD k
    = if (15 : BitVec 4).getLsbD (k / 8) = true ∧ ((inMode .svc).privileged = true ∨ 24 ≤ k) then v.getLsbD k
      else (inMode .svc).cpsr.getLsbD k := by
  have h : ∀ j : Fin 32, (15 : BitVec 4).getLsbD (j.val / 8) = true := by decide
  rw [if_pos ⟨h ⟨k, hk⟩, .inl (by decide)⟩]

theorem witness_MsrWritesFields : (∃ rm, Instr.msrReg .al false 15 0 = .msrReg .al false 15 rm
      ∧ (0xF000001F : Word) = ({ inMode .svc with gpr := State.reset.gpr.set 0 0xF000001F } : State).reg rm)
    ∧ conditionPassed .al (inMode .svc) = true ∧ psrMode 0xF000001F ≠ none
    ∧ (0xF000001F : Word).getLsbD 5 = (inMode .svc).thumb
    ∧ (inMode .svc).privileged = true ∧ (15 : BitVec 4).getLsbD 0 = true ∧ psrMode 0xF0000000 = none
    ∧ psrMode 0xF000003F ≠ none ∧ (0xF000003F : Word).getLsbD 5 ≠ (inMode .svc).thumb :=
  ⟨⟨0, rfl, rfl⟩, rfl, by decide, by decide, by decide, by decide, by decide, by decide, by decide⟩
theorem witness_MsrWritesFields_spsr : (∃ rot imm, Instr.msrImm .al true 8 4 240 = .msrImm .al true 8 rot imm
      ∧ (0xF0000000 : Word) = (immediateOperand rot imm (inMode .abt).c).value)
    ∧ conditionPassed .al (inMode .abt) = true ∧ (inMode .abt).spsr (inMode .abt).mode = some 0
    ∧ (inMode .usr).mode = .usr := ⟨⟨4, 240, rfl, rfl⟩, rfl, rfl, rfl⟩

/-- A data access with the MMU off. -/
def accessOff (s : State) (va : Word) : Access := ⟨s, va, false, .stallUntilComplete⟩

theorem witness_LdrLoadsWord :
    (∃ off, Instr.ldrImm .al .postIndexed false 1 0 4095 = .ldrImm .al .postIndexed false 1 0 off
      ∧ (⟨0xFFFFFFFC, some 0xFFFFEFFD⟩ : Address) = immediateAddress (regs 0 0xFFFFFFFC 0 0) .postIndexed false 1 off)
    ∧ conditionPassed .al (regs 0 0xFFFFFFFC 0 0) = true
    ∧ (Instr.ldrImm .al .postIndexed false 1 0 4095).predictable = true ∧ (0xFFFFFFFC : Word).toNat % 4 = 0
    ∧ (regs 0 0xFFFFFFFC 0 0).NoDataError
    ∧ dataTranslate false 0xFFFFFFFC 0xFFFFFFFC (regs 0 0xFFFFFFFC 0 0)
      = .ok (accessOff (regs 0 0xFFFFFFFC 0 0) 0xFFFFFFFC) ∧ (0 : Reg) ≠ Reg.pc :=
  ⟨⟨4095, rfl, rfl⟩, rfl, rfl, rfl, ⟨rfl, rfl⟩, dataTranslate_off rfl, by decide⟩
theorem witness_LdrLoadsWord_pc : (Instr.ldrImm .al .offset true 1 15 0).predictable = true
    ∧ (Memory.readWord (running 3 0).mem 0).toNat % 4 ≠ 2 ∧ (Memory.readWord (running 2 0).mem 0).toNat % 4 = 2
    ∧ ((running 3 0).reg 1).toNat % 4 = 0 ∧ (15 : Reg) = Reg.pc := by decide
theorem witness_LdrLoadsWord_pc_access : dataTranslate false 0 0 (running 2 0) = .ok (accessOff (running 2 0) 0)
    ∧ (running 2 0).NoDataError := ⟨dataTranslate_off rfl, rfl, rfl⟩
theorem witness_StrStoresWord :
    (∃ n sh rm, Instr.strReg .al .offset true 1 15 0 .lsl 2 = .strReg .al .offset true 1 15 n sh rm
      ∧ (⟨0, none⟩ : Address) = scaledAddress (regs 0 0 0 0) .offset true 1 n sh rm)
    ∧ conditionPassed .al (regs 0 0 0 0) = true ∧ (Instr.strReg .al .offset true 1 15 0 .lsl 2).predictable = true
    ∧ (0 : Word).toNat % 4 = 0 ∧ (regs 0 0 0 0).NoDataError ∧ (regs 0 0 0 0).MemoryCanonical
    ∧ dataTranslate true 0 0 (regs 0 0 0 0) = .ok (accessOff (regs 0 0 0 0) 0) ∧ ((15 : Reg) = Reg.pc ∧ (0 : Reg) ≠
      Reg.pc) :=
  ⟨⟨0, .lsl, 2, rfl, rfl⟩, rfl, rfl, rfl, ⟨rfl, rfl⟩, rfl, dataTranslate_off rfl, by decide⟩
theorem witness_LdrshLoadsSignedHalf :
    (∃ rm, Instr.ldrshReg .al .offset true 1 0 2 = .ldrshReg .al .offset true 1 0 rm
      ∧ (⟨2, none⟩ : Address) = registerAddress (regs 0 2 0 0) .offset true 1 rm)
    ∧ conditionPassed .al (regs 0 2 0 0) = true ∧ (Instr.ldrshReg .al .offset true 1 0 2).predictable = true
    ∧ (2 : Word).toNat % 2 = 0 ∧ (regs 0 2 0 0).NoDataError
    ∧ dataTranslate false 2 2 (regs 0 2 0 0) = .ok (accessOff (regs 0 2 0 0) 2)
    ∧ (regs 0 2 0 0).bigEndian ≠ (2 : Word).getLsbD 1 ∧ (regs 0 0 0 0).bigEndian = (0 : Word).getLsbD 1 :=
  ⟨⟨2, rfl, rfl⟩, rfl, rfl, rfl, ⟨rfl, rfl⟩, dataTranslate_off rfl, by decide, by decide⟩
theorem witness_LdrdAndStrdMoveTwoWords :
    (∃ off, Instr.strdImm .al .preIndexed true 1 2 8 = .strdImm .al .preIndexed true 1 2 off
      ∧ (⟨0xFFFFFFF8, some 0xFFFFFFF8⟩ : Address) = immediateAddress (regs 0 0xFFFFFFF0 0 0) .preIndexed true 1 off)
    ∧ conditionPassed .al (regs 0 0xFFFFFFF0 0 0) = true
    ∧ (Instr.strdImm .al .preIndexed true 1 2 8).predictable = true
    ∧ (Instr.ldrdImm .al .preIndexed true 1 2 8).predictable = true
    ∧ (0xFFFFFFF8 : Word).toNat % 8 = 0 ∧ (regs 0 0xFFFFFFF0 0 0).NoDataError
    ∧ (regs 0 0xFFFFFFF0 0 0).MemoryCanonical
    ∧ dataTranslate true 0xFFFFFFF8 0xFFFFFFF8 (regs 0 0xFFFFFFF0 0 0)
      = .ok (accessOff (regs 0 0xFFFFFFF0 0 0) 0xFFFFFFF8)
    ∧ dataTranslate false 0xFFFFFFF8 0xFFFFFFF8 (regs 0 0xFFFFFFF0 0 0)
      = .ok (accessOff (regs 0 0xFFFFFFF0 0 0) 0xFFFFFFF8) :=
  ⟨⟨8, rfl, rfl⟩, rfl, rfl, rfl, rfl, ⟨rfl, rfl⟩, rfl, dataTranslate_off rfl, dataTranslate_off rfl⟩
theorem witness_SwpAndSwpbExchange : conditionPassed .al (regs 0 0xFFFFFFFC 7 0) = true
    ∧ (Instr.swp .al 1 0 2).predictable = true ∧ (Instr.swpb .al 1 0 2).predictable = true
    ∧ ((regs 0 0xFFFFFFFC 7 0).reg 1).toNat % 4 = 0 ∧ (regs 0 0xFFFFFFFC 7 0).NoDataError
    ∧ (regs 0 0xFFFFFFFC 7 0).MemoryCanonical
    ∧ dataTranslate true ((regs 0 0xFFFFFFFC 7 0).reg 1) ((regs 0 0xFFFFFFFC 7 0).reg 1) (regs 0 0xFFFFFFFC 7 0)
      = .ok (accessOff (regs 0 0xFFFFFFFC 7 0) ((regs 0 0xFFFFFFFC 7 0).reg 1)) :=
  ⟨rfl, rfl, rfl, rfl, ⟨rfl, rfl⟩, rfl, dataTranslate_off rfl⟩
theorem witness_PreloadCompletes : (∃ off, Instr.pldImm false 15 4095 = .pldImm false 15 off)
    ∧ (∃ n sh rm, Instr.pldReg true 1 31 .ror 14 = .pldReg true 1 n sh rm ∧ rm ≠ Reg.pc)
    ∧ (regs 0 0 0 0).now.pldFills = false := ⟨⟨_, rfl⟩, ⟨_, _, 14, rfl, by decide⟩, rfl⟩
theorem witness_MemoryAndAccumulatorWriters : ∃ t u, (Instr.mar .al 1 0).storesToMemory = false
    ∧ exec (.mar .al 1 0) (regs 0 0 0 0) = .next t ∧ (Instr.strImm .al .offset true 1 0 0).writesAccumulator = false
    ∧ exec (.strImm .al .offset true 1 0 0) (regs 0 0 0 0) = .next u := ⟨_, _, rfl, rfl, rfl, rfl⟩

/-- Alignment checking on, R1 given. -/
def strict (r1 : Word) : State := { regs 0 r1 0 0 with eff := { Cp15.reset with control := 0x7A } }

theorem witness_AlignmentAborts :
    dataAccessOf (strict 1) (.ldrshImm .al .offset true 1 0 0) = some ⟨[0], false, some .half, 1, none⟩
    ∧ (Instr.ldrshImm .al .offset true 1 0 0).condition = some .al ∧ conditionPassed .al (strict 1) = true
    ∧ (Instr.ldrshImm .al .offset true 1 0 0).predictable = true
    ∧ ((strict 1).alignmentChecked = true ∧ (1 : Word).toNat % Width.half.bytes ≠ 0) := by decide
theorem witness_AlignmentAborts_double :
    dataAccessOf (regs 0 4 0 0) (.ldrdImm .al .offset true 1 2 0) = some ⟨[2, 3], false, some .double, 4, none⟩
    ∧ (Instr.ldrdImm .al .offset true 1 2 0).condition = some .al ∧ conditionPassed .al (regs 0 4 0 0) = true
    ∧ (Instr.ldrdImm .al .offset true 1 2 0).predictable = true ∧ (4 : Word).toNat % 8 = 4 := by decide
theorem witness_DataMmuFaultsAreDataAborts :
    dataAccessOf (mapped sectionTable 0) (.strImm .al .offset true 1 0 0) = some ⟨[], true, some .word, 0, none⟩
    ∧ (Instr.strImm .al .offset true 1 0 0).condition = some .al
    ∧ conditionPassed .al (mapped sectionTable 0) = true ∧ (Instr.strImm .al .offset true 1 0 0).predictable = true
    ∧ (∀ w, (some Width.word) = some w → (0 : Word).toNat % w.bytes = 0)
    ∧ translate .data true 0 (mapped sectionTable 0) = .fault (.domainSection 0) :=
  ⟨rfl, rfl, rfl, rfl, fun w h => by injection h with h; rw [← h]; rfl, rfl⟩
theorem witness_MisalignedAccessRefused :
    dataAccessOf (regs 0 0xFFFFFFFB 0 0) (.ldrImm .al .offset true 1 15 0)
      = some ⟨[15], false, some .word, 0xFFFFFFFB, none⟩
    ∧ (Instr.ldrImm .al .offset true 1 15 0).condition = some .al ∧ conditionPassed .al (regs 0 0xFFFFFFFB 0 0) = true
    ∧ (Instr.ldrImm .al .offset true 1 15 0).predictable = true ∧ (regs 0 0xFFFFFFFB 0 0).alignmentChecked = false
    ∧ (0xFFFFFFFB : Word).toNat % Width.word.bytes ≠ 0 ∧ ¬ (Width.word = .double ∧ (0xFFFFFFFB : Word).toNat % 8 = 4)
    ∧ (0xFFFFFFFB : Word).toNat + Width.word.bytes ≤ 4294967296 := by decide
theorem witness_MisalignedAccessRefused_wraps :
    dataAccessOf (regs 0 0xFFFFFFFD 0 0) (.ldrdImm .al .offset true 1 2 0)
      = some ⟨[2, 3], false, some .double, 0xFFFFFFFD, none⟩
    ∧ (Instr.ldrdImm .al .offset true 1 2 0).predictable = true ∧ (regs 0 0xFFFFFFFD 0 0).alignmentChecked = false
    ∧ (0xFFFFFFFD : Word).toNat % Width.double.bytes ≠ 0
    ∧ ¬ (Width.double = .double ∧ (0xFFFFFFFD : Word).toNat % 8 = 4)
    ∧ 4294967296 < (0xFFFFFFFD : Word).toNat + Width.double.bytes := by decide

/-- The MMU on over a table, alignment checking off, R1 given. -/
def slanted (m : List Host.Cell) (dacr r1 : Word) : State := { regs 0 r1 0 0 with
  mem := m
  eff := { Cp15.reset with control := 0x79, dacr := dacr } }

theorem witness_MisalignedAccessRefused_mapped :
    dataAccessOf (slanted sectionTable 3 0xFFF02) (.swp .al 1 0 2) = some ⟨[0], true, some .word, 0xFFF02, none⟩
    ∧ (Instr.swp .al 1 0 2).predictable = true ∧ (slanted sectionTable 3 2).alignmentChecked = false := ⟨rfl, rfl, rfl⟩
theorem test_misaligned_refused_before_translation :
    translate .data true 2 (slanted sectionTable 0 2) = .fault (.domainSection 0)
    ∧ exec (.swp .al 1 0 2) (slanted sectionTable 0 2) = .refused .misalignedAccess := ⟨rfl, rfl⟩

/-- The environment reports an external error on the data access. -/
def failing : State := facing { Env.quiet with dataError := true } (regs 0 0x9000 0 0)

/-- A parity error on data of a write-back region of the enabled data cache, R1 given. -/
def striking (r1 : Word) : State := { facing { Env.quiet with dataParity := true } (regs 0 r1 0 0) with
  mem := Memory.writeWord [] 0 0x00100C0E
  eff := { Cp15.reset with control := 0x7D, dacr := 3 } }

theorem witness_ImpreciseAbortsOwed_external :
    dataAccessOf failing (.ldrdImm .al .postIndexed true 1 2 8)
      = some ⟨[2, 3], false, some .double, 0x9000, some (1, 0x9008)⟩
    ∧ (Instr.ldrdImm .al .postIndexed true 1 2 8).condition = some .al ∧ conditionPassed .al failing = true
    ∧ (Instr.ldrdImm .al .postIndexed true 1 2 8).predictable = true
    ∧ (∀ w, some Width.double = some w → (0x9000 : Word).toNat % w.bytes = 0)
    ∧ dataTranslate false 0x9000 0x9000 failing = .ok (accessOff failing 0x9000)
    ∧ Reg.pc ∉ [(2 : Reg), 3] ∧ failing.now.dataError = true
    ∧ (accessOff failing 0x9000).policy = .stallUntilComplete :=
  ⟨rfl, rfl, rfl, rfl, fun w h => by injection h with h; rw [← h]; rfl, dataTranslate_off rfl, by decide, rfl, rfl⟩
theorem witness_ImpreciseAbortsOwed_voided :
    dataAccessOf failing (.strImm .al .offset true 1 1 0) = some ⟨[], true, some .word, 0x9000, none⟩
    ∧ (Instr.strImm .al .offset true 1 1 0).condition = some .al ∧ conditionPassed .al failing = true
    ∧ (Instr.strImm .al .offset true 1 1 0).predictable = true ∧ (0x9000 : Word).toNat % Width.word.bytes = 0
    ∧ dataTranslate true 0x9000 0x9000 failing = .ok (accessOff failing 0x9000) ∧ failing.now.dataError = true
    ∧ (accessOff failing 0x9000).policy = .stallUntilComplete :=
  ⟨rfl, rfl, rfl, rfl, rfl, dataTranslate_off rfl, rfl, rfl⟩
theorem test_failed_store_writes_nothing : ∃ t, exec (.strImm .al .offset true 1 1 0) failing = .next t
    ∧ t.mem = [] ∧ t.owed = [⟨.external, some 3⟩] := ⟨_, rfl, rfl, rfl⟩
theorem witness_ImpreciseAbortsOwed_parity :
    dataAccessOf (striking 1) (.swpb .al 1 0 2) = some ⟨[0], true, none, 1, none⟩
    ∧ (Instr.swpb .al 1 0 2).condition = some .al ∧ conditionPassed .al (striking 1) = true
    ∧ (Instr.swpb .al 1 0 2).predictable = true
    ∧ (∃ a, dataTranslate true 1 1 (striking 1) = .ok a ∧ a.policy.isCached = true)
    ∧ Reg.pc ∉ [(0 : Reg)] ∧ (striking 1).now.dataError = false ∧ (striking 1).now.dataParity = true
    ∧ (striking 1).dataCacheOn = true :=
  ⟨rfl, rfl, rfl, rfl, ⟨_, rfl, rfl⟩, by decide, rfl, rfl, by decide⟩
theorem witness_ImpreciseAbortsOwed_store :
    dataAccessOf (striking 4) (.strImm .al .offset true 1 0 0) = some ⟨[], true, some .word, 4, none⟩
    ∧ (Instr.strImm .al .offset true 1 0 0).condition = some .al ∧ conditionPassed .al (striking 4) = true
    ∧ (Instr.strImm .al .offset true 1 0 0).predictable = true ∧ (4 : Word).toNat % Width.word.bytes = 0
    ∧ (∃ a, dataTranslate true 4 4 (striking 4) = .ok a ∧ a.policy.isCached = true)
    ∧ (striking 4).now.dataError = false ∧ (striking 4).now.dataParity = true ∧ (striking 4).dataCacheOn = true :=
  ⟨rfl, rfl, rfl, rfl, rfl, ⟨_, rfl, rfl⟩, rfl, rfl, by decide⟩
theorem witness_ImpreciseAbortsOwed_owes : failing.now.dataError = true
    ∧ (striking 4).now.dataError = false ∧ (striking 4).now.dataParity = true ∧ (striking 4).dataCacheOn = true
    ∧ (Policy.cached false .writeBack .readAllocate).isCached = true ∧ (Policy.buffered true).isCached = false := by
  decide
/-- An external abort that one further instruction may precede. -/
def owing : State := { running 0xE12FFF11 0 with owed := [⟨.external, some 1⟩] }

theorem witness_ImpreciseAbortsOwed_deadline : Runs owing (.bx .al 1) (begun owing)
    ∧ (⟨.external, some 1⟩ : OwedAbort) ∈ owing.owed :=
  ⟨⟨rfl, owing, rfl, by decide, rfl, rfl, 0xE12FFF11, rfl, rfl⟩, by decide⟩

/-- Interrupts enabled, an abort owed or not. -/
def boundary (e : Env) (l : List OwedAbort) (cpsr : Word) : State :=
  { facing e State.reset with owed := l, cpsr := cpsr }

theorem witness_BoundaryExceptionsByPriority_owed : (boundary Env.quiet [⟨.external, some 0⟩] 0x13).pastTop = false
    ∧ landPending 0 (boundary Env.quiet [⟨.external, some 0⟩] 0x13)
      = some (boundary Env.quiet [⟨.external, some 0⟩] 0x13)
    ∧ psrMode 0x13 ≠ none
    ∧ (boundary Env.quiet [⟨.external, some 0⟩] 0x13).reported = some (⟨.external, some 0⟩, []) :=
  ⟨rfl, rfl, by decide, rfl⟩
theorem witness_BoundaryExceptionsByPriority_delivered :
    (boundary { Env.quiet with deliver := true } [⟨.parity, none⟩, ⟨.external, some 2⟩] 0x13).reported
      = some (⟨.external, some 2⟩, [⟨.parity, none⟩])
    ∧ (boundary { Env.quiet with deliver := true } [⟨.parity, none⟩] 0x13).reported = some (⟨.parity, none⟩, [])
    ∧ (boundary Env.quiet [⟨.parity, none⟩, ⟨.external, some 2⟩] 0x13).reported = none := by decide
theorem witness_BoundaryExceptionsByPriority_fiq : (boundary { Env.quiet with fiq := true } [] 0x13).reported = none
    ∧ (boundary { Env.quiet with fiq := true } [] 0x13).now.fiq = true
    ∧ (boundary { Env.quiet with fiq := true } [] 0x13).fiqDisabled = false := by decide
theorem witness_BoundaryExceptionsByPriority_irq :
    (boundary { Env.quiet with irq := true, fiq := true } [] 0x53).reported =
  none
    ∧ (boundary { Env.quiet with irq := true, fiq := true } [] 0x53).fiqDisabled = true
    ∧ (boundary { Env.quiet with irq := true, fiq := true } [] 0x53).now.irq = true
    ∧ (boundary { Env.quiet with irq := true, fiq := true } [] 0x53).irqDisabled = false := by decide
theorem witness_BoundaryExceptionsByPriority_none : (boundary Env.quiet [] 0x13).reported = none
    ∧ (boundary Env.quiet [] 0x13).now.fiq = false ∧ (boundary Env.quiet [] 0x13).now.irq = false := by decide

theorem witness_FailedFetchTakesPrefetchAbort : (mapped [] 0).pastTop = false
    ∧ landPending (mapped [] 0).now.land (mapped [] 0) = some (mapped [] 0) ∧ psrMode (mapped [] 0).cpsr ≠ none
    ∧ (mapped [] 0).boundaryException = none ∧ (mapped [] 0).thumb = false
    ∧ (mapped [] 0).ageOwed.fetch = .abort (mapped [] 0) 0b10000
    ∧ translate .instruction false (mapped [] 0).pc (mapped [] 0) = .fault .translationSection :=
  ⟨rfl, rfl, by decide, rfl, rfl, rfl, rfl⟩
theorem witness_FailedFetchTakesPrefetchAbort_walk :
    translate .instruction false 0 (facing { Env.quiet with fetchWalkAbort := some .first } (mapped sectionTable 3))
      = .fault .walkFirst
    ∧ translate .instruction false 0 (facing { Env.quiet with fetchWalkAbort := some .second }
        (mapped (Memory.writeWord [] 0 0x1001) 3)) = .fault (.walkSecond 0) := ⟨rfl, rfl⟩
theorem witness_FailedFetchTakesPrefetchAbort_external :
    ∃ t, translate .instruction false 0 (facing { Env.quiet with fetchError := true } (mapped sectionTable 3))
      = .ok t 0x00100000 ⟨false, false, false, false⟩
    ∧ (facing { Env.quiet with fetchError := true } (mapped sectionTable 3)).now.fetchError = true
    ∧ t.itlb.find 0 ≠ none := ⟨_, rfl, rfl, by decide⟩

/-- The instruction cache on, and a parity error on the fetch. -/
def parity : State := { facing { Env.quiet with fetchParity := true } State.reset with
  eff := { Cp15.reset with control := 0x1078 } }

theorem witness_FailedFetchTakesPrefetchAbort_parity :
    translate .instruction false parity.pc parity = .ok parity 0 (attributesOff .instruction)
    ∧ parity.now.fetchError = false ∧ parity.now.fetchParity = true ∧ parity.instructionCacheOn = true
    ∧ (attributesOff .instruction).c = true := ⟨rfl, rfl, rfl, by decide, rfl⟩

theorem witness_MrcReadsRegisters :
    conditionPassed .al State.reset = true ∧ State.reset.privileged = true ∧ (14 : Reg) ≠ Reg.pc
    ∧ ((14 : BitVec 4), (0 : BitVec 4), (0 : BitVec 3)) ∉ [((0 : BitVec 4), (0 : BitVec 4), (0 : BitVec 3)), (0, 0,
      1),
      (1, 0, 0), (1, 0, 1), (2, 0, 0), (3, 0, 0), (5, 0, 0), (6, 0, 0), (9, 2, 0), (13, 0, 0), (15, 1, 0)] := by
        decide
theorem witness_MrcReadsRegisters_pc :
    State.reset.readCp15 15 1 0 = some 0 ∧ State.reset.readCp15 2 0 0 = some 0 := ⟨rfl, rfl⟩
theorem witness_McrWritesRegisters : conditionPassed .al (regs 0 4 1 0) = true ∧ (regs 0 4 1 0).privileged = true
    ∧ (1 : Reg) ≠ Reg.pc ∧ ((regs 0 4 1 0).reg 1).getLsbD 0 = false ∧ ((regs 0 4 1 0).reg 1).getLsbD 2 = true
    ∧ ¬ (((regs 0 4 1 0).reg 2).getLsbD 0 = false ∧ ((regs 0 4 1 0).reg 2).getLsbD 2 = true)
    ∧ (regs 0 4 1 0).subWord = false := by decide

/-- A byte or halfword access has been performed, R1 given. -/
def subWordDone (r1 : Word) : State := { regs 0 r1 0 0 with subWord := true }

theorem witness_McrWritesRegisters_byteOrder : conditionPassed .al (subWordDone 0x80) = true
    ∧ (subWordDone 0x80).privileged = true
    ∧ ¬ (((subWordDone 0x80).reg 1).getLsbD 0 = false ∧ ((subWordDone 0x80).reg 1).getLsbD 2 = true)
    ∧ (subWordDone 0x80).subWord = true
    ∧ ((subWordDone 0x80).reg 1).getLsbD 7 ≠ (subWordDone 0x80).cp15.control.getLsbD 7
    ∧ ((subWordDone 1).reg 1).getLsbD 7 = (subWordDone 1).cp15.control.getLsbD 7 := by decide
theorem witness_McrWritesRegisters_unlisted :
    ((7 : BitVec 4), (14 : BitVec 4), (0 : BitVec 3)) ∉ [((1 : BitVec 4), (0 :
  BitVec 4),
      (0 : BitVec 3)), (1, 0, 1), (2, 0, 0), (3, 0, 0), (5, 0, 0), (6, 0, 0), (9, 2, 0), (13, 0, 0), (15, 1, 0), (8,
        7, 0),
      (8, 5, 0), (8, 5, 1), (8, 6, 0), (8, 6, 1), (10, 4, 0), (10, 4, 1), (10, 8, 0), (10, 8, 1), (7, 7, 0), (7, 6,
        0),
      (7, 6, 1), (7, 5, 0), (7, 5, 1), (7, 5, 6), (7, 10, 1), (7, 10, 4), (7, 2, 5), (9, 1, 0), (9, 1, 1), (9, 2,
        1)] := by
  decide
theorem witness_McrTlbFunctionsPend : conditionPassed .al (regs 0 7 0 0) = true ∧ (regs 0 7 0 0).privileged = true
    ∧ (1 : Reg) ≠ Reg.pc ∧ (7 : Word) = remap (regs 0 7 0 0).cp15.pid ((regs 0 7 0 0).reg 1)
    ∧ ((8 : BitVec 4), (6 : BitVec 4), (1 : BitVec 3), Cp15Effect.invalidateEntry .data 7)
      ∈ [((8 : BitVec 4), (7 : BitVec 4), (0 : BitVec 3), Cp15Effect.invalidateBoth),
        (8, 5, 0, .invalidate .instruction), (8, 5, 1, .invalidateEntry .instruction 7),
        (8, 6, 0, .invalidate .data), (8, 6, 1, .invalidateEntry .data 7), (10, 4, 1, .unlock .instruction),
        (10, 8, 1, .unlock .data)] := by decide

/-- A section at virtual address 0 whose domain has an access value, in program order. -/
def lockable (m : List Host.Cell) (dacr : Word) : State := { State.reset with
  mem := m
  cp15 := { Cp15.reset with control := 0x79, dacr := dacr } }

theorem witness_TranslateAndLockIssuesOrAborts :
    ((Side.data = .instruction ∧ (8 : BitVec 4) = 4) ∨ (Side.data = .data ∧ (8 :
  BitVec 4) = 8))
    ∧ conditionPassed .al (lockable sectionTable 1) = true ∧ (lockable sectionTable 1).privileged = true
    ∧ (0 : Reg) ≠ Reg.pc
    ∧ (0 : Word) = remap (lockable sectionTable 1).cp15.pid ((lockable sectionTable 1).reg 0)
    ∧ walk sectionTable (lockable sectionTable 1).now.dataWalkAbort 0 0 0 = .ok (sectionEntry 0x00100C02 0)
    ∧ (lockable sectionTable 1).cp15.control.getLsbD 0 = true
    ∧ checkAccess 1 0x79 (sectionEntry 0x00100C02 0) 0 true false = .pass :=
  ⟨.inr ⟨rfl, rfl⟩, rfl, by decide, by decide, by decide, rfl, by decide, by decide⟩
theorem witness_TranslateAndLockIssuesOrAborts_aborts :
    walk [] (lockable [] 0).now.dataWalkAbort 0 0 0 = .error .translationSection
    ∧ walk sectionTable none 0 0 0 = .ok (sectionEntry 0x00100C02 0)
    ∧ checkAccess 0 0x79 (sectionEntry 0x00100C02 0) 0 true false = .fault (.domainSection 0)
    ∧ checkAccess 2 0x79 (sectionEntry 0x00100C02 0) 0 true false = .refused .reservedDomain :=
  ⟨rfl, rfl, by decide, by decide⟩
theorem witness_TranslateAndLockIssuesOrAborts_off : State.reset.cp15.control.getLsbD 0 = false
    ∧ conditionPassed .al State.reset = true ∧ State.reset.privileged = true := by decide
theorem test_lock_with_the_mmu_off : exec (.mcr .al 10 0 0 4) State.reset = .refused .lockMmuOff
    ∧ ∃ t, exec (.mcr .al 10 0 0 4) (lockable [] 1) = .next t ∧ fsrStatus t.fsr = 0b10100 := ⟨rfl, _, rfl, by
  simp [State.takeDataAbort, DataAbort.status]⟩
theorem witness_McrCacheFunctionsAct : conditionPassed .al State.reset = true ∧ State.reset.privileged = true
    ∧ (0 : Reg) ≠ Reg.pc ∧ State.reset.dirty = false ∧ ({ State.reset with dirty := true } : State).dirty = true
    ∧ ((7 : BitVec 4), (6 : BitVec 4), (1 : BitVec 3)) ∈ [((7 : BitVec 4), (7 : BitVec 4), (0 : BitVec 3)), (7, 6,
      0), (7, 6, 1)] := by decide

/-- The MMU on in program order over the section table, with a domain access value, a TLB and a pending function. -/
def lineLock (dacr : Word) (l : Tlb) (es : List Cp15Effect) : State := { lockable sectionTable dacr with
  itlb := l
  pending := es }

theorem witness_McrCacheFunctionsAct_lock : landPending State.reset.pending.length State.reset = some State.reset
    ∧ State.reset.now.dataError = false ∧ State.reset.cp15.control.getLsbD 0 = false
    ∧ (0 : Word) = remap State.reset.cp15.pid (State.reset.reg 0) ∧ failing.now.dataError = true
    ∧ failing.cp15.control.getLsbD 0 = false := ⟨rfl, rfl, by decide, by decide, rfl, by decide⟩
theorem witness_McrCacheFunctionsAct_lock_resident : (lineLock 1 residentTlb []).cp15.control.getLsbD 0 = true
    ∧ residentTlb.find 0 = some (sectionEntry 0x00100C02 0)
    ∧ checkAccess 1 0x79 (sectionEntry 0x00100C02 0) 0 true false = .pass
    ∧ checkAccess 0 0x79 (sectionEntry 0x00100C02 0) 0 true false = .fault (.domainSection 0) := by decide
theorem witness_McrCacheFunctionsAct_lock_walk :
    (∃ u, landPending 1 (lineLock 1 residentTlb [.invalidate .instruction]) = some u ∧ u.itlb.find 0 = none)
    ∧ walk sectionTable none 0 0 0 = .ok (sectionEntry 0x00100C02 0)
    ∧ walk [] none 0 0 0 = .error .translationSection := ⟨⟨_, rfl, by decide⟩, rfl, rfl⟩
theorem witness_Cp15TrapsInUserMode : (Instr.mrc .al 1 15 0 0 = .mcr .al 1 15 0 0 ∨ Instr.mrc .al 1 15 0 0 = .mrc
  .al 1 15 0 0)
    ∧ conditionPassed .al (inMode .usr) = true ∧ (inMode .usr).mode = .usr := by decide
theorem witness_LandsInProgramOrder : landPending 1 cpwaitStart
      = some { cpwaitStart with pending := [], eff := { Cp15.reset with dacr := 1 } } := rfl
theorem witness_LandsInProgramOrder_tlbs : Side.instruction ≠ .data
    ∧ (endingCpwait (.unlock .instruction) residentTlb).pending = [.unlock .instruction]
    ∧ (endingCpwait .invalidateBoth residentTlb).pending = [.invalidateBoth]
    ∧ (endingCpwait (.fill .instruction 0 TlbEntry.empty) residentTlb).pending = [.fill .instruction 0 TlbEntry.empty]
    ∧ ((endingCpwait (.lock .instruction 0x100000 TlbEntry.empty) residentTlb).tlb .instruction).find 0x100000 = none
    ∧ ((endingCpwait (.lock .instruction 0 TlbEntry.empty) residentTlb).tlb .instruction).find 0 ≠ none := by decide

/-- The MMU off in effect, with a process ID. -/
def processed (pid : Word) : State := { regs 0 4 0x12345678 0 with eff := { Cp15.reset with pid := pid } }

theorem witness_AccessesAreTranslatedAndClassified : (processed 0x05000000).mmuOn = false
    ∧ (33554431 : Word).toNat < 33554432 ∧ 33554432 ≤ (33554432 : Word).toNat := by decide
theorem test_mmu_off_remaps : remap 0x05000000 0x01FFFFFF = 0x05FFFFFF ∧ remap 0x05000000 0x02000000 = 0x02000000
    ∧ ∃ t, exec (.strImm .al .offset true 1 2 0) (processed 0x05000000) = .next t
      ∧ Memory.readWord t.mem 0x04000004 = 0x12345678 ∧ Memory.readWord t.mem 4 = Memory.readWord [] 4 :=
  ⟨rfl, rfl, _, rfl, by decide, by decide⟩

/-- The MMU on, the first section with given attribute bits, and an Auxiliary Control Register. -/
def attributed (d1 aux : Word) : State := { mapped (Memory.writeWord [] 0 d1) 3 with
  eff := { Cp15.reset with control := 0x79, dacr := 3, auxControl := aux } }

theorem witness_AccessesAreTranslatedAndClassified_on : (mapped sectionTable 3).mmuOn = true
    ∧ (0x100000 : Word) = remap (mapped sectionTable 3).eff.pid 0x100000
    ∧ ((mapped sectionTable 3).tlb .data).find 0x100000 = none
    ∧ walk (mapped sectionTable 3).mem none 0 0 0x100000 = .error .translationSection
    ∧ walk (mapped sectionTable 3).mem none 0 0 0 = .ok (sectionEntry 0x00100C02 0)
    ∧ ({ mapped sectionTable 3 with itlb := residentTlb }.tlb .instruction).find 0
      = some (sectionEntry 0x00100C02 0)
    ∧ residentTlb.find 0x100000 = none
    ∧ checkAccess 3 0x79 (sectionEntry 0x00100C02 0) 0 true true = .pass
    ∧ checkAccess 0 0x79 (sectionEntry 0x00100C02 0) 0 true true = .fault (.domainSection 0)
    ∧ checkAccess 2 0x79 (sectionEntry 0x00100C02 0) 0 true true = .refused .reservedDomain :=
  ⟨by decide, rfl, by decide, rfl, rfl, rfl, by decide, rfl, rfl, rfl⟩
theorem witness_AccessesAreTranslatedAndClassified_data :
    translate .data true 0 (mapped sectionTable 0) = .fault (.domainSection 0)
    ∧ translate .data true 0 (mapped sectionTable 2) = .refused .reservedDomain
    ∧ (∃ t pa, translate .data true 0 (attributed 0x0010000E 0) = .ok t pa ⟨false, true, true, false⟩)
    ∧ dataPolicy ⟨false, true, true, false⟩ (attributed 0x0010000E 0).eff.auxControl
      = some (.cached false .writeBack .readAllocate)
    ∧ (∃ t pa, translate .data true 0 (attributed 0x00101002 0) = .ok t pa ⟨true, false, false, false⟩)
    ∧ dataPolicy ⟨true, false, false, false⟩ (attributed 0x00101002 0).eff.auxControl = none :=
  ⟨rfl, rfl, ⟨_, _, rfl⟩, rfl, ⟨_, _, rfl⟩, rfl⟩
theorem witness_AccessesAreTranslatedAndClassified_mini : (0xFFFFFFCF : Word).toNat / 16 % 4 = 0
    ∧ (16 : Word).toNat / 16 % 4 = 1 ∧ (32 : Word).toNat / 16 % 4 = 2 ∧ (0x3F : Word).toNat / 16 % 4 = 3 := by decide

/-- A first-level table at 0 whose first descriptor is a page table's at `0x1000`, and that table's first entry. -/
def pageTable (d1 d2 : Word) : List Host.Cell := Memory.writeWord (Memory.writeWord [] 0 d1) 0x1000 d2

theorem witness_TranslationTablesGiveAddresses_first :
    (0 : Word) = Memory.readWord [] (0 / 16384 * 16384 + 0 / 1048576 * 4)
    ∧ (0 : Word).toNat % 4 = 0
    ∧ (0x00100C02 : Word) = Memory.readWord sectionTable (0 / 16384 * 16384 + 0xFFFFF / 1048576 * 4)
    ∧ (0x00100C02 : Word).toNat % 4 = 2 ∧ (0x00100C02 : Word).toNat % 2 = 0 := by decide
theorem witness_TranslationTablesGiveAddresses_coarse : (0x1001 : Word) = Memory.readWord (pageTable 0x1001 0x5FF1) 0
    ∧ (0x1001 : Word).toNat % 4 = 1 ∧ (0x1001 : Word).toNat % 2 = 1
    ∧ (0x5FF1 : Word) = Memory.readWord (pageTable 0x1001 0x5FF1) (0x1001 / 1024 * 1024 + 0 / 4096 % 256 * 4)
    ∧ (0x5FF0 : Word) = Memory.readWord (pageTable 0x1001 0x5FF0) 0x1000
    ∧ (0x5FF0 : Word).toNat % 4 = 0 ∧ (0x5FF1 : Word).toNat % 4 = 1 ∧ (0x5FF2 : Word).toNat % 4 = 2
    ∧ (0x5FF3 : Word).toNat % 4 = 3 := by decide
theorem witness_TranslationTablesGiveAddresses_fine : (0x1003 : Word) = Memory.readWord (pageTable 0x1003 0x5FF3) 0
    ∧ (0x1003 : Word).toNat % 4 = 3
    ∧ (0x5FF3 : Word) = Memory.readWord (pageTable 0x1003 0x5FF3) (0x1003 / 4096 * 4096 + 0 / 1024 % 1024 * 4) := by
      decide
theorem witness_TranslationTablesGiveAddresses_checks : (3 : Word).toNat / 4 ^ (0 : BitVec 4).toNat % 4 = 3
    ∧ (0 : Word).toNat / 4 ^ (15 : BitVec 4).toNat % 4 = 0 ∧ (0x40000000 : Word).toNat / 4 ^ (15 : BitVec 4).toNat %
      4 = 1
    ∧ (sectionEntry 0x00100C02 0).ap 0 = 3 ∧ (sectionEntry 0x00100802 0).ap 0 = 2
    ∧ (sectionEntry 0x00100402 0).ap 0 = 1 ∧ (2 : Word).toNat / 4 ^ (0 : BitVec 4).toNat % 4 = 2
    ∧ (sectionEntry 0x00100002 0).ap 0 = 0 ∧ (0x300 : Word).getLsbD 8 = true ∧ (0x300 : Word).getLsbD 9 = true
    ∧ (0x100 : Word).getLsbD 8 = true ∧ (0x100 : Word).getLsbD 9 = false ∧ (0x200 : Word).getLsbD 8 = false
    ∧ (0x200 : Word).getLsbD 9 = true ∧ (0 : Word).getLsbD 8 = false
    ∧ (sectionEntry 0x00100C02 0).size = .section1M
    ∧ (pageEntry 0x1001 0x5FF2 0 .small4K 0xFF false).size ≠ .section1M := by decide

/-- The MMU on over the section table, the instruction TLB given. -/
def filling (l : Tlb) : State := { mapped sectionTable 3 with itlb := l }

theorem witness_RoundRobinFillsNextEntry_walk : ∃ t pa a, (filling Tlb.reset).mmuOn = true
    ∧ translate .instruction false 0 (filling Tlb.reset) = .ok t pa a
    ∧ ((filling Tlb.reset).tlb .instruction).find (remap (filling Tlb.reset).eff.pid 0) = none :=
  ⟨_, _, _, by decide, rfl, by decide⟩
theorem witness_RoundRobinFillsNextEntry_hit : ∃ t pa a e, (filling residentTlb).mmuOn = true
    ∧ translate .instruction false 0 (filling residentTlb) = .ok t pa a
    ∧ ((filling residentTlb).tlb .instruction).find (remap (filling residentTlb).eff.pid 0) = some e :=
  ⟨_, _, _, _, by decide, rfl, rfl⟩

/-- A TLB with every entry but the last locked. -/
def fullTlb : Tlb where
  entries := (Vector.replicate 32 { TlbEntry.empty with locked := true }).set 31 TlbEntry.empty
  lockPtr := 31
  rrPtr := 31

theorem witness_RoundRobinFillsNextEntry_full : fullTlb.lockPtr = 31 ∧ fullTlb.rrPtr = 31 := ⟨rfl, rfl⟩
theorem witness_LockPointerLeavesEntry31Free :
    fullTlb.Ordered ∧ fullTlb.lockPtr = 31 ∧ Tlb.reset.Ordered ∧ Tlb.reset.lockPtr.val <
  31 := by
  unfold Tlb.Ordered; decide
theorem witness_InvalidateKeepsLockedEntries : fullTlb.entries[(0 : Fin 32)].locked = true
    ∧ residentTlb.entries[(0 : Fin 32)].locked = false ∧ residentTlb.entries[(0 : Fin 32)].hits 0xFFFFF = true
    ∧ residentTlb.entries[(0 : Fin 32)].hits 0x100000 = false := by decide

/-- A software interrupt, and a move, in User mode. -/
def userStep (w : Nat) : State := State.withFetchWord (inMode .usr) 32 w

theorem witness_UserModeIsConfined : step (userStep 0xEF000000) = .next (next (userStep 0xEF000000))
    ∧ (userStep 0xEF000000).ModeLegal ∧ (userStep 0xEF000000).mode = .usr :=
  ⟨rfl, by unfold State.ModeLegal; decide, by decide⟩
theorem witness_UserModeIsConfined_stays : step (userStep 0xE1A00000) = .next (next (userStep 0xE1A00000))
    ∧ (userStep 0xE1A00000).ModeLegal ∧ (userStep 0xE1A00000).mode = .usr ∧ (next (userStep 0xE1A00000)).mode = .usr
      :=
  ⟨rfl, by unfold State.ModeLegal; decide, by decide, by decide⟩

end Sys2Proof.Tests
end

section
/-!
SUPPORT. What an instruction can do, said once: to the machine outside the registers (`Effect`), and to the status
register and the program counter (`StatusEffect`). Every statement about all instructions is read off `exec_executed`.
-/

namespace Sys2Proof.Machine

/-! ## Low bits of sums -/

theorem getLsbD_add_low {a b : Word} {n i : Nat} (hb : b.toNat % 2 ^ n = 0) (hi : i < n) :
    (a + b).getLsbD i = a.getLsbD i := by
  obtain ⟨q, hq⟩ := Nat.dvd_of_mod_eq_zero hb
  have hsplit : 2 ^ n = 2 ^ (i + 1) * 2 ^ (n - (i + 1)) := by rw [← Nat.pow_add]; congr 1; omega
  by_cases h32 : i < 32
  · have hw : (4294967296 : Nat) = 2 ^ (i + 1) * 2 ^ (32 - (i + 1)) := by
      rw [← Nat.pow_add, show i + 1 + (32 - (i + 1)) = 32 by omega]
    have hm : (a + b).toNat % 2 ^ (i + 1) = a.toNat % 2 ^ (i + 1) := by
      rw [BitVec.toNat_add, show (2 : Nat) ^ 32 = 4294967296 from rfl, hw, Nat.mod_mul_right_mod, hq, hsplit,
        Nat.mul_assoc, Nat.add_mul_mod_self_left]
    have ht : ∀ w : Word, w.getLsbD i = (w.toNat % 2 ^ (i + 1)).testBit i := fun w => by
      rw [Nat.testBit_mod_two_pow]; simp [BitVec.getLsbD]
    rw [ht, ht, hm]
  · rw [BitVec.getLsbD_of_ge _ _ (by omega), BitVec.getLsbD_of_ge _ _ (by omega)]

theorem branchOffset_mod_four (imm : BitVec 24) : (branchOffset imm).toNat % 4 = 0 := by
  unfold branchOffset
  rw [BitVec.toNat_shiftLeft, Nat.shiftLeft_eq]
  omega

theorem branchTarget_low (s : State) (imm : BitVec 24) {i : Nat} (hi : i < 2) :
    (s.branchTarget imm).getLsbD i = s.pc.getLsbD i := by
  unfold State.branchTarget
  rw [getLsbD_add_low (n := 2) (branchOffset_mod_four imm) hi, getLsbD_add_low (n := 2) (by decide) hi]

/-! ## The program counter stays aligned (rules R25, R300) -/

theorem State.PcAligned.of_low {s t : State} (h : s.PcAligned) (hp : ∀ i, i < 2 → t.pc.getLsbD i = s.pc.getLsbD i)
    (ht : t.thumb = s.thumb) : t.PcAligned := by
  obtain ⟨h0, h1⟩ := h
  exact ⟨by rw [hp 0 (by decide)]; exact h0, fun x => by rw [hp 1 (by decide)]; exact h1 (ht ▸ x)⟩

/-- Advancing keeps the program counter aligned. -/
theorem State.PcAligned.advance {s t : State} (h : s.PcAligned) (hp : t.pc = s.pc + 4) (ht : t.thumb = s.thumb) :
    t.PcAligned :=
  h.of_low (fun i hi => by rw [hp, getLsbD_add_low (n := 2) (by decide) hi]) ht

/-- A multiple of 4 is aligned in both states. -/
theorem State.pcAligned_of_low_zero {t : State} (h : t.pc.extractLsb' 0 2 = 0) : t.PcAligned := by
  have hb : ∀ i, i < 2 → t.pc.getLsbD i = false := fun i hi => by
    have e := congrArg (fun x : BitVec 2 => x.getLsbD i) h
    simpa [BitVec.getLsbD_extractLsb', hi] using e
  exact ⟨hb 0 (by decide), fun _ => hb 1 (by decide)⟩

/-- Every vector is a multiple of 4 (rule R331). -/
theorem vector_low (s : State) (k : Exception) : (s.vectorBase + k.offset).extractLsb' 0 2 = 0 := by
  unfold State.vectorBase
  split <;> cases k <;> decide

/-! ## What an instruction does in the core -/

/-- What an instruction does in the core itself: the registers, the program counter, the status registers, the
accumulator, the fault registers and CPWAIT's stage; nothing of coprocessor 15's control, the TLBs or memory. -/
def CoreStep (s t : State) : Prop :=
  t = { s with gpr := t.gpr, pc := t.pc, cpsr := t.cpsr, spsrFiq := t.spsrFiq, spsrIrq := t.spsrIrq,
               spsrSvc := t.spsrSvc, spsrAbt := t.spsrAbt, spsrUnd := t.spsrUnd, acc0 := t.acc0, fsr := t.fsr,
               far := t.far, cpwait := t.cpwait, pastTop := t.pastTop }

theorem CoreStep.refl (s : State) : CoreStep s s := rfl

theorem CoreStep.trans {s t u : State} (h : CoreStep s t) (k : CoreStep t u) : CoreStep s u := by
  unfold CoreStep at *
  rw [h] at k
  exact k

theorem CoreStep.setReg {s t : State} (h : CoreStep s t) (r : Reg) (v : Word) : CoreStep s (t.setReg r v) :=
  h.trans (by unfold State.setReg; split <;> rfl)

theorem CoreStep.setSpsr {s t : State} (h : CoreStep s t) (m : Mode) (v : Word) : CoreStep s (t.setSpsr m v) :=
  h.trans (by cases m <;> rfl)

theorem CoreStep.setCpsr {s t : State} (h : CoreStep s t) (v : Word) : CoreStep s (t.setCpsr v) := h.trans rfl

theorem CoreStep.writeBack {s t : State} (h : CoreStep s t) (rn : Reg) (a : Address) :
    CoreStep s (t.writeBack rn a) := by
  unfold State.writeBack
  split
  · exact h
  · exact h.setReg rn _

theorem CoreStep.advance {s t : State} (h : CoreStep s t) : CoreStep s t.advance := h.trans rfl

theorem CoreStep.branchTo {s t : State} (h : CoreStep s t) (target : Word) : CoreStep s (t.branchTo target) :=
  h.trans rfl

theorem CoreStep.takeException (s : State) (k : Exception) (link fsr far : Word) :
    CoreStep s { s.takeException k link with fsr := fsr, far := far } := by
  cases k <;> rfl

section
variable {s t : State}

theorem CoreStep.cp15_eq (h : CoreStep s t) : t.cp15 = s.cp15 := by unfold CoreStep at h; rw [h]
theorem CoreStep.eff_eq (h : CoreStep s t) : t.eff = s.eff := by unfold CoreStep at h; rw [h]
theorem CoreStep.pending_eq (h : CoreStep s t) : t.pending = s.pending := by unfold CoreStep at h; rw [h]
theorem CoreStep.itlb_eq (h : CoreStep s t) : t.itlb = s.itlb := by unfold CoreStep at h; rw [h]
theorem CoreStep.dtlb_eq (h : CoreStep s t) : t.dtlb = s.dtlb := by unfold CoreStep at h; rw [h]
theorem CoreStep.mem_eq (h : CoreStep s t) : t.mem = s.mem := by unfold CoreStep at h; rw [h]

theorem DataStep.acc0_eq (h : DataStep s t) : t.acc0 = s.acc0 := by unfold DataStep at h; rw [h]
theorem DataStep.cp15_eq (h : DataStep s t) : t.cp15 = s.cp15 := by unfold DataStep at h; rw [h]
theorem DataStep.pending_eq (h : DataStep s t) : t.pending = s.pending := by unfold DataStep at h; rw [h]

theorem ControlStep.pc_eq (h : ControlStep s t) : t.pc = s.pc := by unfold ControlStep at h; rw [h]
theorem ControlStep.cpsr_eq (h : ControlStep s t) : t.cpsr = s.cpsr := by unfold ControlStep at h; rw [h]
theorem ControlStep.acc0_eq (h : ControlStep s t) : t.acc0 = s.acc0 := by unfold ControlStep at h; rw [h]
theorem ControlStep.eff_eq (h : ControlStep s t) : t.eff = s.eff := by unfold ControlStep at h; rw [h]
theorem ControlStep.itlb_eq (h : ControlStep s t) : t.itlb = s.itlb := by unfold ControlStep at h; rw [h]
theorem ControlStep.dtlb_eq (h : ControlStep s t) : t.dtlb = s.dtlb := by unfold ControlStep at h; rw [h]
theorem ControlStep.mem_eq (h : ControlStep s t) : t.mem = s.mem := by unfold ControlStep at h; rw [h]

end

/-- What an instruction does to the machine: a data access, or an MCR, or neither, and its part in the core. -/
inductive Effect (i : Instr) (s t : State) : Prop
  | access {u : State} (keeps : DataKeeps s u) (memory : i.storesToMemory = false → u.mem = s.mem)
      (core : CoreStep u t) (acc0 : i.writesAccumulator = false → t.acc0 = u.acc0)
  | control {u : State} {crn crm : BitVec 4} {op2 : BitVec 3} {v : Word} (write : s.writeCp15 crn crm op2 v = .ok u)
      (core : CoreStep u t) (acc0 : t.acc0 = u.acc0)

/-- What an instruction does to the status register and the program counter (rules R25, R27). -/
structure StatusEffect (i : Instr) (s t : State) : Prop where
  conditions : i.writesConditionFlags = false → ∀ j, 28 ≤ j → j < 32 → t.cpsr.getLsbD j = s.cpsr.getLsbD j
  sticky : i.writesStatus = false → s.q = true → t.q = true
  mode : s.ModeLegal → t.ModeLegal
  pc : s.PcAligned → t.PcAligned

/-- Everything an instruction can do. -/
structure Executed (i : Instr) (s t : State) : Prop where
  effect : Effect i s t
  status : StatusEffect i s t

section
variable {i : Instr} {s t u : State}

/-! ## Effects -/

theorem Effect.core (h : CoreStep s t) (ha : i.writesAccumulator = false → t.acc0 = s.acc0) : Effect i s t :=
  .access (.refl s) (fun _ => rfl) h ha

/-! ## Status -/

theorem State.ModeLegal.of_low (h : s.ModeLegal) (hl : ∀ j, j < 5 → t.cpsr.getLsbD j = s.cpsr.getLsbD j) :
    t.ModeLegal := by
  unfold State.ModeLegal at *
  rw [psrMode_of_low hl]
  exact h

/-- The status register is as it was. -/
theorem StatusEffect.kept (hc : t.cpsr = s.cpsr) (hp : s.PcAligned → t.PcAligned) : StatusEffect i s t where
  conditions _ _ _ _ := by rw [hc]
  sticky _ := by unfold State.q; rw [hc]; exact id
  mode h := h.of_low fun _ _ => by rw [hc]
  pc := hp

/-- The status register is as it was, and the program counter advances. -/
theorem StatusEffect.advanced (hc : t.cpsr = s.cpsr) (hp : t.pc = s.pc + 4) : StatusEffect i s t :=
  .kept hc fun h => h.advance hp (by unfold State.thumb; rw [hc])

/-- The control byte of the status register is as it was, and the program counter advances. -/
theorem StatusEffect.flags (hl : ∀ j, j < 8 → t.cpsr.getLsbD j = s.cpsr.getLsbD j) (hp : t.pc = s.pc + 4)
    (hc : i.writesConditionFlags = false → ∀ j, 28 ≤ j → j < 32 → t.cpsr.getLsbD j = s.cpsr.getLsbD j)
    (hq : i.writesStatus = false → s.q = true → t.q = true) : StatusEffect i s t where
  conditions := hc
  sticky := hq
  mode h := h.of_low fun j hj => hl j (by omega)
  pc h := h.advance hp (hl 5 (by decide))

theorem Exception.cpsr_high (k : Exception) (c : Word) {j : Nat} (h8 : 8 ≤ j) (h32 : j < 32) :
    (k.cpsr c).getLsbD j = c.getLsbD j := by
  have e : ∀ n : Fin 32, 8 ≤ n.val → (0xFFFFFF40 : Word).getLsbD n = true ∧ (0x80 : Word).getLsbD n = false
      ∧ (0x40 : Word).getLsbD n = false := by decide
  obtain ⟨h1, h2, h3⟩ := e ⟨j, h32⟩ h8
  simp only at h1 h2 h3
  rw [Exception.cpsr_bit, h1, h2, h3, BitVec.getLsbD_setWidth, BitVec.getLsbD_of_ge _ _ (by omega : 5 ≤ j)]
  simp

/-- An exception leaves one of the seven modes (rule R330). -/
theorem modeLegal_of_exception {k : Exception} {c : Word} (h : t.cpsr = k.cpsr c) : t.ModeLegal := by
  unfold State.ModeLegal
  rw [h, psrMode_exception]
  rfl

/-- An exception goes to a vector (rule R331). -/
theorem pcAligned_of_exception {k : Exception} (h : t.pc = s.vectorBase + k.offset) : t.PcAligned :=
  State.pcAligned_of_low_zero (by rw [h]; exact vector_low s k)

/-! ## Executions -/

/-- Taking an exception (rules R330, R331). -/
theorem Executed.exception (k : Exception) (link fsr far : Word) :
    Executed i s { s.takeException k link with fsr := fsr, far := far } where
  effect := .core (.takeException s k link fsr far) fun _ => State.takeException_acc0 s k link
  status :=
    { conditions := fun _ j h8 h32 => by
        rw [State.takeException_cpsr]; exact k.cpsr_high s.cpsr (by omega) h32
      sticky := fun _ h => by
        unfold State.q at *
        rw [State.takeException_cpsr, k.cpsr_high s.cpsr (by decide) (by decide)]
        exact h
      mode := fun _ => modeLegal_of_exception (State.takeException_cpsr s k link)
      pc := fun _ => pcAligned_of_exception (State.takeException_pc s k link) }

/-- The Undefined Instruction exception (rule R356). -/
theorem Executed.undefined : Executed i s s.takeUndefined := .exception .undefined (s.pc + 4) s.fsr s.far

/-- An instruction that only advances the program counter. -/
theorem Executed.advance : Executed i s s.advance :=
  ⟨.core (.advance (.refl s)) fun _ => rfl, .advanced rfl rfl⟩

/-- A register of R0 to R14 written, and the program counter advanced. -/
theorem Executed.registers (hc : CoreStep s t) (ha : i.writesAccumulator = false → t.acc0 = s.acc0)
    (hs : t.cpsr = s.cpsr) (hp : t.pc = s.pc + 4) : Executed i s t :=
  ⟨.core hc ha, .advanced hs hp⟩

theorem Executed.conditional {c : Cond} {b : Answer} (h : conditional c s b = .next t)
    (k : b = .next t → Executed i s t) : Executed i s t := by
  cases hc : conditionPassed c s with
  | true => rw [conditional_true hc] at h; exact k h
  | false => rw [conditional_false hc] at h; injection h with h; rw [← h]; exact .advance

theorem Executed.predictably {b : Answer} (h : predictably i b = .next t)
    (k : i.predictable = true → b = .next t → Executed i s t) : Executed i s t := by
  cases hp : i.predictable with
  | true => rw [predictably_true hp] at h; exact k hp h
  | false => rw [predictably_false hp] at h; cases h

theorem Executed.accumulatorGate {b : Answer} (h : accumulatorGate s b = .next t)
    (k : b = .next t → Executed i s t) : Executed i s t := by
  cases hg : s.eff.cpar.getLsbD 0 with
  | true => rw [accumulatorGate_open hg] at h; exact k h
  | false => rw [accumulatorGate_shut hg] at h; injection h with h; rw [← h]; exact .undefined

theorem Executed.privilegedAccess {b : Answer} (h : privilegedAccess s b = .next t)
    (k : b = .next t → Executed i s t) : Executed i s t := by
  cases hp : s.privileged with
  | true => rw [privilegedAccess_true hp] at h; exact k h
  | false => rw [privilegedAccess_false hp] at h; injection h with h; rw [← h]; exact .undefined

/-- The end of an instruction over an access: the access's state, or the data abort. -/
theorem Executed.finish {x : Res State} (h : x.finish s = .next t) (k : x = .ok t → Executed i s t) :
    Executed i s t := by
  rcases Res.finish_next h with h | ⟨a, va, _, rfl⟩
  · exact k h
  · exact .exception _ _ _ _

/-- An access to coprocessor 0: the condition, the gate, the register fields. -/
theorem Executed.gated {c : Cond} {b : Answer}
    (h : Machine.conditional c s (Machine.accumulatorGate s (Machine.predictably i b)) = .next t)
    (k : i.predictable = true → b = .next t → Executed i s t) : Executed i s t :=
  .conditional h fun h => .accumulatorGate h fun h => .predictably h k

/-- A conditional instruction with register fields to check. -/
theorem Executed.checked {c : Cond} {b : Answer} (h : Machine.conditional c s (Machine.predictably i b) = .next t)
    (k : i.predictable = true → b = .next t → Executed i s t) : Executed i s t :=
  .conditional h fun h => .predictably h k

end

end Sys2Proof.Machine
end

section
/-!
SUPPORT. The meanings, group by group: each is an `Executed`.
-/

namespace Sys2Proof.Machine

section
variable {i : Instr} {s t u : State}

/-! ## Registers named by a predictable instruction -/

theorem ne_pc_of_noneIsPc {rs : List Reg} (h : Reg.noneIsPc rs = true) {r : Reg} (hr : r ∈ rs) : r ≠ Reg.pc := by
  have := List.all_eq_true.1 h r hr
  simpa using this

/-- The registers of a predictable LDRD or STRD are below R15 (rule R191). -/
theorem doublePredictable_ne_pc {m : Index} {rn rd : Reg} (h : doublePredictable m rn rd = true) :
    rd ≠ Reg.pc ∧ rd + 1 ≠ Reg.pc := by
  simp only [doublePredictable, Bool.and_eq_true] at h
  have below : ∀ r : Reg, (!r.getLsbD 0) = true → (r != Reg.lr) = true → r ≠ Reg.pc ∧ r + 1 ≠ Reg.pc := by
    decide
  obtain ⟨⟨heven, hlr⟩, _⟩ := h
  exact below rd heven hlr

/-- A predictable writeback of LDRD or STRD does not name R15 as its base (rule R191). -/
theorem doublePredictable_base {m : Index} {u : Bool} {b o : Word} {rn rd : Reg}
    (h : doublePredictable m rn rd = true) (hw : (indexedAddress m u b o).writeback ≠ none) : rn ≠ Reg.pc := by
  cases m <;> simp_all [indexedAddress, doublePredictable, Index.writesBack]

theorem setReg_advance_pc {r : Reg} (h : r ≠ Reg.pc) (v : Word) : (s.setReg r v).advance.pc = s.pc + 4 := by
  rw [State.setReg_eq h]; rfl

/-- A result written to a register other than R15. -/
theorem Executed.setReg {r : Reg} (h : r ≠ Reg.pc) (v : Word) : Executed i s (s.setReg r v).advance :=
  .registers (.advance (.setReg (.refl s) r v)) (fun _ => by simp) (by simp) (setReg_advance_pc h v)

/-- Two results written to registers other than R15. -/
theorem Executed.setReg_setReg {r q : Reg} (hr : r ≠ Reg.pc) (hq : q ≠ Reg.pc) (v w : Word) :
    Executed i s ((s.setReg r v).setReg q w).advance :=
  .registers (.advance (.setReg (.setReg (.refl s) r v) q w)) (fun _ => by simp) (by simp)
    (by rw [setReg_advance_pc hq, State.setReg_eq hr]; rfl)

/-- A result written to a register other than R15, with the status register: its control byte is kept. -/
theorem Executed.setReg_setCpsr {r : Reg} (h : r ≠ Reg.pc) (v : Word) {c : Word}
    (hl : ∀ j, j < 8 → c.getLsbD j = s.cpsr.getLsbD j)
    (hc : i.writesConditionFlags = false → ∀ j, 28 ≤ j → j < 32 → c.getLsbD j = s.cpsr.getLsbD j)
    (hq : i.writesStatus = false → s.q = true → c.getLsbD 27 = true) :
    Executed i s ((s.setReg r v).setCpsr c).advance :=
  ⟨.core (.advance (.setCpsr (.setReg (.refl s) r v) c)) fun _ => by simp,
    .flags hl (by rw [State.setReg_eq h]; rfl) hc hq⟩

/-! ## Data processing (rules R270 to R274) -/

/-- A transfer of control to an address with bits 1:0 zero. -/
theorem Executed.dataBranch {target : Word} (h : s.dataBranch target = .next t) : Executed i s t := by
  unfold State.dataBranch at h
  split at h
  · next hz =>
    injection h with h
    subst h
    exact ⟨.core (.branchTo (.refl s) target) fun _ => rfl, .kept rfl fun _ => State.pcAligned_of_low_zero hz⟩
  · cases h

/-- Everything a return from an exception does (rules R274, R335). -/
theorem exceptionReturn_next {target : Word} (h : s.exceptionReturn target = .next t) :
    ∃ psr, (psrMode psr).isSome = true ∧ t = (s.setCpsr psr).branchTo target
      ∧ (target.extractLsb' 0 2 = 0 ∨ (psr.getLsbD 5 = true ∧ target.getLsbD 0 = false)) := by
  unfold State.exceptionReturn at h
  split at h
  · cases h
  · next psr _ =>
    split at h
    · cases h
    · next m hm =>
      split at h
      · next ht => injection h with h; exact ⟨psr, by rw [hm]; rfl, h.symm, ht⟩
      · cases h

/-- A return from an exception, by an instruction that may write the whole status register. -/
theorem Executed.exceptionReturn {target : Word} (hc : i.writesConditionFlags = true) (hs : i.writesStatus = true)
    (h : s.exceptionReturn target = .next t) : Executed i s t := by
  obtain ⟨psr, hm, rfl, ht⟩ := exceptionReturn_next h
  refine ⟨.core (.branchTo (.setCpsr (.refl s) psr) target) fun _ => rfl, ?_⟩
  refine ⟨fun x => ?_, fun x => ?_, fun _ => hm, fun _ => ?_⟩
  · rw [hc] at x; cases x
  · rw [hs] at x; cases x
  · rcases ht with hz | ⟨h5, h0⟩
    · exact State.pcAligned_of_low_zero hz
    · exact ⟨h0, fun x => absurd (h5.symm.trans x) (by decide)⟩

/-- The end of a data-processing instruction that sets the flags above bit 27 when S = 1. -/
theorem Executed.dataResult {f : Bool} {rd : Reg} {r c : Word} (hc : i.writesConditionFlags = f)
    (hs : i.writesStatus = (f && rd == Reg.pc)) (hl : ∀ j, j < 28 → c.getLsbD j = s.cpsr.getLsbD j)
    (h : s.dataResult f rd r c = .next t) : Executed i s t := by
  unfold State.dataResult at h
  split at h
  · next hr =>
    split at h
    · next hf => exact .exceptionReturn (by rw [hc, hf]) (by rw [hs, hf, hr]; rfl) h
    · exact .dataBranch h
  · next hr =>
    injection h with h
    subst h
    cases f
    · exact .setReg_setCpsr hr r (fun _ _ => rfl) (fun _ _ _ _ => rfl) fun _ x => x
    · exact .setReg_setCpsr hr r (fun j hj => hl j (by omega)) (fun x => by rw [hc] at x; cases x)
        fun _ x => (hl 27 (by decide)).trans x

theorem Executed.move {f : Bool} {rd : Reg} {op : Shifted} (hc : i.writesConditionFlags = f)
    (hs : i.writesStatus = (f && rd == Reg.pc)) (h : s.move f rd op = .next t) : Executed i s t :=
  .dataResult hc hs (fun _ hj => withNZC_low _ _ _ (by omega)) h

theorem Executed.add {f : Bool} {rn rd : Reg} {op : Shifted} (hc : i.writesConditionFlags = f)
    (hs : i.writesStatus = (f && rd == Reg.pc)) (h : s.add f rn rd op = .next t) : Executed i s t :=
  .dataResult hc hs (fun _ hj => withNZCV_low _ _ _ _ (by omega)) h

theorem Executed.sub {f : Bool} {rn rd : Reg} {op : Shifted} (hc : i.writesConditionFlags = f)
    (hs : i.writesStatus = (f && rd == Reg.pc)) (h : s.sub f rn rd op = .next t) : Executed i s t :=
  .dataResult hc hs (fun _ hj => withNZCV_low _ _ _ _ (by omega)) h

theorem Executed.orr {f : Bool} {rn rd : Reg} {op : Shifted} (hc : i.writesConditionFlags = f)
    (hs : i.writesStatus = (f && rd == Reg.pc)) (h : s.orr f rn rd op = .next t) : Executed i s t :=
  .dataResult hc hs (fun _ hj => withNZC_low _ _ _ (by omega)) h

/-! ## Multiplies and saturating arithmetic -/

theorem Executed.writeResult {rd : Reg} (hr : rd ≠ Reg.pc) {v : Word} (h : s.writeResult rd v = .next t) :
    Executed i s t := by
  injection h with h; rw [← h]; exact .setReg hr v

theorem Executed.writeSticky {rd : Reg} (hr : rd ≠ Reg.pc) {v : Word} {o : Bool}
    (h : s.writeSticky rd v o = .next t) :
    Executed i s t := by
  injection h with h
  rw [← h]
  refine .setReg_setCpsr hr v (fun j hj => ?_) (fun _ j h28 _ => ?_) fun _ hq => ?_
  · rw [withQ_bit]; simp; omega
  · rw [withQ_bit]; simp; omega
  · rw [withQ_bit, show s.cpsr.getLsbD 27 = true from hq]; rfl

/-- MLA: the flags N and Z where S = 1 (rule R290). -/
theorem Executed.execMla {c : Cond} {f : Bool} {rd rn rs rm : Reg} (h : execMla c f rd rn rs rm s = .next t) :
    Executed (.mla c f rd rn rs rm) s t := by
  refine .checked h fun hp h => ?_
  have hr : rd ≠ Reg.pc := ne_pc_of_noneIsPc (Bool.and_eq_true_iff.1 hp).1 (by simp)
  injection h with h
  rw [← h]
  cases f with
  | false => exact .setReg_setCpsr hr _ (fun _ _ => rfl) (fun _ _ _ _ => rfl) fun _ x => x
  | true =>
    exact .setReg_setCpsr hr _ (fun _ hj => withNZ_low _ _ (by omega)) (fun x => by cases x)
      fun _ x => (withNZ_low _ _ (by decide)).trans x

/-- An accumulation: acc0 and the program counter. -/
theorem Executed.accumulate {p : Int} (hw : i.writesAccumulator = true) (h : s.accumulate p = .next t) :
    Executed i s t := by
  injection h with h
  rw [← h]
  exact .registers rfl (fun x => by rw [hw] at x; cases x) rfl rfl

/-! ## Branches (rules R298 to R303) -/

theorem State.link_core (s : State) : CoreStep s s.link := .setReg (.refl s) _ _

/-- B and BL: the program counter moves by a multiple of 4. -/
theorem Executed.branch (hu : CoreStep s u) (ha : u.acc0 = s.acc0) (hc : u.cpsr = s.cpsr) (imm : BitVec 24) :
    Executed i s (u.branchTo (s.branchTarget imm)) :=
  ⟨.core (.branchTo hu _) fun _ => ha, .kept hc fun h =>
    h.of_low (fun _ hi => branchTarget_low s imm hi) (by show u.cpsr.getLsbD 5 = _; rw [hc]; rfl)⟩

/-- BLX with an immediate: T is set, and the program counter is a multiple of 2 (rule R303). -/
theorem Executed.blxImm (h : Bool) (imm : BitVec 24) :
    Executed i s (({ s.link with cpsr := s.cpsr ||| 0x20 }).branchTo (s.branchTarget imm + bitAt h 1)) := by
  have hb : ∀ j, (s.cpsr ||| 0x20 : Word).getLsbD j = (s.cpsr.getLsbD j || decide (j = 5)) := fun j => by
    rw [BitVec.getLsbD_or, bit_five]
  refine ⟨.core (.trans s.link_core rfl) fun _ => by rw [State.link_eq]; rfl, ?_⟩
  refine ⟨fun _ j h28 _ => ?_, fun _ hq => ?_, fun hm => hm.of_low fun j hj => ?_, fun hp => ⟨?_, fun x => ?_⟩⟩
  · rw [State.branchTo_cpsr, hb]; simp; omega
  · unfold State.q at *; rw [State.branchTo_cpsr, hb, hq]; rfl
  · rw [State.branchTo_cpsr, hb]; simp; omega
  · rw [State.branchTo_pc, getLsbD_add_low (n := 1) (by cases h <;> decide) (by decide),
      branchTarget_low s imm (by decide)]
    exact hp.1
  · unfold State.thumb at x; rw [State.branchTo_cpsr, hb] at x; simp at x

/-- BX's transfer: T is bit 0 of the target, which is then a multiple of 2, and of 4 in ARM state (rule R301). -/
theorem StatusEffect.exchangeBranch {v : Word} (hc : u.cpsr = s.cpsr) (h : u.exchangeBranch v = .next t) :
    StatusEffect i s t := by
  have h4 : v.toNat % 4 ≠ 2 := fun e => by rw [State.exchangeBranch_refused _ e] at h; cases h
  obtain ⟨t', ht, hpc, _, hT, hb, _⟩ := State.exchangeBranch_spec u h4
  rw [ht] at h
  injection h with h
  subst h
  rw [hc] at hb
  refine ⟨fun _ j h28 _ => hb j (by omega), fun _ hq => ?_, fun hm => hm.of_low fun j hj => hb j (by omega),
    fun _ => ?_⟩
  · unfold State.q at *; rw [hb 27 (by decide)]; exact hq
  · refine ⟨(bit_zero _).2 (by omega), fun x => ?_⟩
    rw [hT, bit_zero] at x
    rw [BitVec.getLsbD, Nat.testBit_eq_decide_div_mod_eq, hpc]
    simp
    omega

theorem exchangeBranch_core {v : Word} (h : u.exchangeBranch v = .next t) : CoreStep u t ∧ t.acc0 = u.acc0 := by
  unfold State.exchangeBranch at h
  split at h
  · cases h
  · injection h with h; rw [← h]; exact ⟨rfl, rfl⟩

theorem Executed.exchangeBranch {v : Word} (hu : CoreStep s u) (ha : u.acc0 = s.acc0) (hc : u.cpsr = s.cpsr)
    (h : u.exchangeBranch v = .next t) : Executed i s t := by
  obtain ⟨hk, hk0⟩ := exchangeBranch_core h
  exact ⟨.core (hu.trans hk) fun _ => hk0.trans ha, .exchangeBranch hc h⟩

/-! ## Loads, stores and swaps -/

/-- An access that completes, with its registers below R15 and the program counter advanced. -/
theorem Executed.access (hd : DataKeeps s u) (hm : i.storesToMemory = false → u.mem = s.mem) (hk : CoreStep u t)
    (ha : t.acc0 = u.acc0) (hc : t.cpsr = u.cpsr) (hp : t.pc = u.pc + 4) : Executed i s t :=
  ⟨.access hd hm hk fun _ => ha, .advanced (hc.trans hd.step.cpsr_eq) (hp.trans (by rw [hd.step.pc_eq]))⟩

theorem dataTranslate_mem {w : Bool} {far va : Word} {a : Access} (h : dataTranslate w far va s = .ok a) :
    a.state.mem = s.mem := by
  obtain ⟨_, hm, _⟩ := dataTranslate_like h
  exact hm

theorem loadWord_mem {va v : Word} (h : loadWord va s = .ok (u, v)) : u.mem = s.mem := by
  unfold loadWord at h
  split at h
  · cases h
  · exact absurd h misalignedAccess_ne_ok
  · obtain ⟨a, ha, he⟩ := Res.bind_ok h
    cases he
    exact dataTranslate_mem ha

theorem loadSignedHalf_mem {va v : Word} (h : loadSignedHalf va s = .ok (u, v)) : u.mem = s.mem := by
  unfold loadSignedHalf at h
  split at h
  · cases h
  · exact absurd h misalignedAccess_ne_ok
  · obtain ⟨a, ha, he⟩ := Res.bind_ok h
    cases he
    exact dataTranslate_mem ha

theorem loadDouble_mem {va v w : Word} (h : loadDouble va s = .ok (u, v, w)) : u.mem = s.mem := by
  unfold loadDouble at h
  split at h
  · cases h
  · exact absurd h misalignedAccess_ne_ok
  · obtain ⟨a, ha, he⟩ := Res.bind_ok h
    cases he
    exact dataTranslate_mem ha

theorem preload_mem (s : State) (va : Word) : (s.preload va).mem = s.mem := by
  unfold State.preload
  split
  · split
    · next t pa x ht => rcases translate_state ht with rfl | ⟨e, rfl⟩ <;> simp
    · rfl
    · rfl
  · rfl

theorem writeBack_pc {rn : Reg} {a : Address} (h : a.writeback ≠ none → rn ≠ Reg.pc) :
    (s.writeBack rn a).pc = s.pc := by
  rw [State.writeBack_eq h]

/-- LDR (rule R280): a load to R15 is a transfer of control. -/
theorem Executed.loadRegister {rn rd : Reg} {a : Address} (hw : a.writeback ≠ none → rn ≠ Reg.pc)
    (h : s.loadRegister rn rd a = .next t) : Executed i s t := by
  unfold State.loadRegister at h
  split at h
  · next u v hl =>
    have hd := loadWord_keeps hl
    have hm : u.mem = s.mem := loadWord_mem hl
    have hb : CoreStep u (u.writeBack rn a) := .writeBack (.refl u) rn a
    split at h
    · obtain ⟨hk, hk0⟩ := exchangeBranch_core h
      exact ⟨.access hd (fun _ => hm) (hb.trans hk) fun _ => hk0.trans (by simp),
        .exchangeBranch (by rw [State.writeBack_cpsr, hd.step.cpsr_eq]) h⟩
    · next hr =>
      injection h with h
      subst h
      exact .access hd (fun _ => hm) (.advance (hb.setReg rd v)) (by simp) (by simp)
        (by rw [setReg_advance_pc hr, writeBack_pc hw])
  · injection h with h; rw [← h]; exact .exception _ _ _ _
  · cases h
  · cases h

/-- STR (rule R281). -/
theorem Executed.storeRegister {rn rd : Reg} {a : Address} (hi : i.storesToMemory = true)
    (hw : a.writeback ≠ none → rn ≠ Reg.pc) (h : s.storeRegister rn rd a = .next t) : Executed i s t := by
  refine .finish h fun h => ?_
  obtain ⟨u, hu, h⟩ := Res.bind_ok h
  cases h
  exact .access (storeWordAt_keeps hu) (fun x => by rw [hi] at x; cases x) (.advance (.writeBack (.refl u) rn a))
    (by simp) (by simp) (by rw [State.advance_pc, writeBack_pc hw])

/-- LDRSH (rule R287). -/
theorem Executed.loadHalfRegister {rn rd : Reg} {a : Address} (hr : rd ≠ Reg.pc)
    (hw : a.writeback ≠ none → rn ≠ Reg.pc) (h : s.loadHalfRegister rn rd a = .next t) : Executed i s t := by
  refine .finish h fun h => ?_
  obtain ⟨⟨u, v⟩, hu, h⟩ := Res.bind_ok h
  cases h
  exact .access (loadSignedHalf_keeps hu) (fun _ => loadSignedHalf_mem hu)
    (.advance (.setReg (.writeBack (.refl u) rn a) rd v)) (by simp) (by simp)
    (by rw [setReg_advance_pc hr, writeBack_pc hw])

/-- LDRD (rule R191). -/
theorem Executed.loadPair {rn rd : Reg} {a : Address} (hr : rd ≠ Reg.pc) (hr1 : rd + 1 ≠ Reg.pc)
    (hw : a.writeback ≠ none → rn ≠ Reg.pc) (h : s.loadPair rn rd a = .next t) : Executed i s t := by
  refine .finish h fun h => ?_
  obtain ⟨⟨u, v, w⟩, hu, h⟩ := Res.bind_ok h
  cases h
  exact .access (loadDouble_keeps hu) (fun _ => loadDouble_mem hu)
    (.advance (.writeBack (.setReg (.setReg (.refl u) rd v) (rd + 1) w) rn a)) (by simp) (by simp)
    (by rw [State.advance_pc, writeBack_pc hw, State.setReg_eq hr1, State.setReg_eq hr]; rfl)

/-- STRD (rule R192). -/
theorem Executed.storePair {rn rd : Reg} {a : Address} (hi : i.storesToMemory = true)
    (hw : a.writeback ≠ none → rn ≠ Reg.pc) (h : s.storePair rn rd a = .next t) : Executed i s t := by
  refine .finish h fun h => ?_
  obtain ⟨u, hu, h⟩ := Res.bind_ok h
  cases h
  exact .access (storeDoubleAt_keeps hu) (fun x => by rw [hi] at x; cases x) (.advance (.writeBack (.refl u) rn a))
    (by simp) (by simp) (by rw [State.advance_pc, writeBack_pc hw])

/-- SWP and SWPB (rules R296, R297). -/
theorem Executed.swap {x : Res (State × Word)} {rd : Reg} (hi : i.storesToMemory = true) (hr : rd ≠ Reg.pc)
    (hx : ∀ u v, x = .ok (u, v) → DataKeeps s u)
    (h : (x.bind fun (u, v) => .ok (u.setReg rd v).advance).finish s = .next t) : Executed i s t := by
  refine .finish h fun h => ?_
  obtain ⟨⟨u, v⟩, hu, h⟩ := Res.bind_ok h
  cases h
  exact .access (hx u v hu) (fun x => by rw [hi] at x; cases x) (.advance (.setReg (.refl u) rd v)) (by simp) (by simp)
    (setReg_advance_pc hr v)

/-- PLD (rules R195 to R200). -/
theorem Executed.preload (va : Word) : Executed i s (s.preload va).advance :=
  .access (preload_keeps s va) (fun _ => preload_mem s va) (.advance (.refl _)) rfl rfl rfl

/-! ## Status and coprocessor transfers -/

/-- MSR to the CPSR (rule R307). -/
theorem Executed.writeCpsrFields {mask : BitVec 4} {v : Word} (hc : i.writesConditionFlags = true)
    (hs : i.writesStatus = true) (h : s.writeCpsrFields mask v = .next t) : Executed i s t := by
  unfold State.writeCpsrFields at h
  split at h
  · cases h
  · next hm =>
    split at h
    · cases h
    · next hT =>
      injection h with h
      subst h
      refine ⟨.core (.advance (.setCpsr (.refl s) _)) fun _ => rfl, fun x => ?_, fun x => ?_, fun hl => ?_,
        fun hp => hp.advance rfl (not_not.1 hT)⟩
      · rw [hc] at x; cases x
      · rw [hs] at x; cases x
      · by_cases hw : s.privileged = true ∧ mask.getLsbD 0 = true
        · exact Option.isSome_iff_ne_none.2 fun e => hm ⟨hw.1, hw.2, e⟩
        · refine hl.of_low fun j hj => ?_
          rw [State.advance_cpsr, State.setCpsr_cpsr, State.mergedCpsr_bit _ _ _ (by omega), if_neg]
          rintro ⟨hb, hp⟩
          rw [show j / 8 = 0 by omega] at hb
          exact hw ⟨hp.resolve_right (by omega), hb⟩

/-- MSR to an SPSR (rule R307). -/
theorem Executed.writeSpsrFields {mask : BitVec 4} {v : Word} (h : s.writeSpsrFields mask v = .next t) :
    Executed i s t := by
  unfold State.writeSpsrFields at h
  split at h
  · cases h
  · injection h with h
    subst h
    exact .registers (.advance (.setSpsr (.refl s) _ _)) (fun _ => by simp) (by simp) (by simp)

/-- MRS (rule R306). -/
theorem Executed.execMrs {c : Cond} {r : Bool} {rd : Reg} (h : execMrs c r rd s = .next t) :
    Executed (.mrs c r rd) s t := by
  refine .checked h fun hp h => ?_
  have hr : rd ≠ Reg.pc := by simpa [Instr.predictable] using hp
  split at h
  · split at h
    · cases h
    · injection h with h; rw [← h]; exact .setReg hr _
  · injection h with h; rw [← h]; exact .setReg hr _

/-- MRC (rule R241): with Rd = R15 bits 31:28 go to the flags. -/
theorem Executed.execMrc {c : Cond} {crn crm : BitVec 4} {op2 : BitVec 3} {rd : Reg}
    (h : execMrc c crn rd op2 crm s = .next t) : Executed (.mrc c crn rd op2 crm) s t := by
  refine .conditional h fun h => .privilegedAccess h fun h => ?_
  split at h
  · cases h
  · next v _ =>
    split at h
    · next hr =>
      injection h with h
      subst h
      have hl : ∀ j, j < 28 → (mergeMask 0xF0000000 s.cpsr v).getLsbD j = s.cpsr.getLsbD j := fun _ hj =>
        mergeMask_low (by decide) hj
      refine ⟨.core (.advance (.setCpsr (.refl s) _)) fun _ => rfl, .flags (fun j hj => hl j (by omega)) rfl
        (fun x => ?_) fun _ hq => (hl 27 (by decide)).trans hq⟩
      subst hr
      cases x
    · next hr => injection h with h; rw [← h]; exact .setReg hr v

/-- MCR (rule R242). -/
theorem Executed.mcr {crn crm : BitVec 4} {op2 : BitVec 3} {v : Word}
    (h : ((s.writeCp15 crn crm op2 v).bind fun u => .ok u.advance).finish s = .next t) : Executed i s t := by
  refine .finish h fun h => ?_
  obtain ⟨u, hu, h⟩ := Res.bind_ok h
  cases h
  have hk : ControlStep s u := State.writeCp15_step hu
  exact ⟨.control hu (.advance (.refl u)) rfl, .advanced hk.cpsr_eq (by rw [State.advance_pc, hk.pc_eq])⟩

end

end Sys2Proof.Machine
end

section
/-!
SUPPORT. `exec`, arm by arm.
-/

namespace Sys2Proof.Machine

/-- Everything an instruction can do, one arm for each instruction. -/
theorem exec_executed {i : Instr} {s t : State} (h : exec i s = .next t) : Executed i s t := by
  cases i with
  | pldImm u rn off => injection h with h; rw [← h]; exact .preload _
  | pldReg u rn n sh rm => exact .predictably h fun _ h => by injection h with h; rw [← h]; exact .preload _
  | blxImm x imm => injection h with h; rw [← h]; exact .blxImm x imm
  | mia c rs rm => exact .gated h fun _ => .accumulate rfl
  | miaph c rs rm => exact .gated h fun _ => .accumulate rfl
  | miabb c rs rm => exact .gated h fun _ => .accumulate rfl
  | miabt c rs rm => exact .gated h fun _ => .accumulate rfl
  | miatb c rs rm => exact .gated h fun _ => .accumulate rfl
  | miatt c rs rm => exact .gated h fun _ => .accumulate rfl
  | mar c rdHi rdLo =>
    refine .gated h fun _ h => ?_
    injection h with h
    rw [← h]
    exact .registers rfl (fun x => by cases x) rfl rfl
  | mra c rdHi rdLo =>
    refine .gated h fun hp h => ?_
    have hn := (Bool.and_eq_true_iff.1 hp).1
    injection h with h
    rw [← h]
    exact .setReg_setReg (ne_pc_of_noneIsPc hn (by simp)) (ne_pc_of_noneIsPc hn (by simp)) _ _
  | mcrr c rn rd cp op crm => exact .conditional h fun h => by injection h with h; rw [← h]; exact .undefined
  | mrrc c rn rd cp op crm => exact .conditional h fun h => by injection h with h; rw [← h]; exact .undefined
  | mcr c crn rd op2 crm => exact .conditional h fun h => .privilegedAccess h fun h => .predictably h fun _ => .mcr
  | mrc c crn rd op2 crm => exact .execMrc h
  | b c imm => exact .conditional h fun h => by injection h with h; rw [← h]; exact .branch (.refl s) rfl rfl imm
  | bl c imm =>
    refine .conditional h fun h => ?_
    injection h with h
    rw [← h]
    exact .branch s.link_core (by rw [State.link_eq]; rfl) (by rw [State.link_eq]; rfl) imm
  | swi c imm =>
    exact .conditional h fun h => by
      injection h with h; rw [← h]; exact .exception .swi (s.pc + 4) s.fsr s.far
  | ldrImm c m u rn rd off => exact .checked h fun hp => .loadRegister fun hw => (basePredictable_writeback hp hw).1
  | ldrReg c m u rn rd n sh rm =>
    exact .checked h fun hp => .loadRegister fun hw => (basePredictable_writeback hp hw).1
  | strImm c m u rn rd off =>
    exact .checked h fun hp => .storeRegister rfl fun hw => (basePredictable_writeback hp hw).1
  | strReg c m u rn rd n sh rm =>
    exact .checked h fun hp => .storeRegister rfl fun hw => (basePredictable_writeback hp hw).1
  | mla c f rd rn rs rm => exact .execMla h
  | swp c rn rd rm =>
    exact .checked h fun hp => .swap rfl
      (ne_pc_of_noneIsPc (Bool.and_eq_true_iff.1 (Bool.and_eq_true_iff.1 hp).1).1 (by simp))
      fun _ _ => swapWordAt_keeps
  | swpb c rn rd rm =>
    exact .checked h fun hp => .swap rfl
      (ne_pc_of_noneIsPc (Bool.and_eq_true_iff.1 (Bool.and_eq_true_iff.1 hp).1).1 (by simp))
      fun _ _ => swapByteAt_keeps
  | ldrshImm c m u rn rd off =>
    refine .checked h fun hp => ?_
    obtain ⟨hr, hb⟩ := Bool.and_eq_true_iff.1 hp
    exact .loadHalfRegister (bne_iff_ne.1 hr) fun hw => (basePredictable_writeback hb hw).1
  | ldrshReg c m u rn rd rm =>
    refine .checked h fun hp => ?_
    obtain ⟨hr, hb⟩ := Bool.and_eq_true_iff.1 hp
    exact .loadHalfRegister (bne_iff_ne.1 hr) fun hw => (basePredictable_writeback hb hw).1
  | ldrdImm c m u rn rd off =>
    refine .checked h fun hp => ?_
    obtain ⟨hr, hr1⟩ := doublePredictable_ne_pc hp
    exact .loadPair hr hr1 fun hw => doublePredictable_base hp hw
  | ldrdReg c m u rn rd rm =>
    refine .checked h fun hp => ?_
    have hd := (Bool.and_eq_true_iff.1 hp).1
    obtain ⟨hr, hr1⟩ := doublePredictable_ne_pc hd
    exact .loadPair hr hr1 fun hw => doublePredictable_base hd hw
  | strdImm c m u rn rd off => exact .checked h fun hp => .storePair rfl fun hw => doublePredictable_base hp hw
  | strdReg c m u rn rd rm =>
    exact .checked h fun hp => .storePair rfl fun hw => doublePredictable_base (Bool.and_eq_true_iff.1 hp).1 hw
  | smla c rd rn rs y x rm => exact .checked h fun hp => .writeSticky (ne_pc_of_noneIsPc hp (by simp))
  | smlaw c rd rn rs y rm => exact .checked h fun hp => .writeSticky (ne_pc_of_noneIsPc hp (by simp))
  | smulw c rd rs y rm => exact .checked h fun hp => .writeResult (ne_pc_of_noneIsPc hp (by simp))
  | smlal c rdHi rdLo rs y x rm =>
    refine .checked h fun hp h => ?_
    have hn := (Bool.and_eq_true_iff.1 hp).1
    injection h with h
    rw [← h]
    exact .setReg_setReg (ne_pc_of_noneIsPc hn (by simp)) (ne_pc_of_noneIsPc hn (by simp)) _ _
  | smul c rd rs y x rm => exact .checked h fun hp => .writeResult (ne_pc_of_noneIsPc hp (by simp))
  | qadd c rn rd rm => exact .checked h fun hp => .writeSticky (ne_pc_of_noneIsPc hp (by simp))
  | qsub c rn rd rm => exact .checked h fun hp => .writeSticky (ne_pc_of_noneIsPc hp (by simp))
  | qdadd c rn rd rm => exact .checked h fun hp => .writeSticky (ne_pc_of_noneIsPc hp (by simp))
  | qdsub c rn rd rm => exact .checked h fun hp => .writeSticky (ne_pc_of_noneIsPc hp (by simp))
  | bx c rm => exact .conditional h (.exchangeBranch (.refl s) rfl rfl)
  | blxReg c rm =>
    exact .checked h fun _ => .exchangeBranch s.link_core (by rw [State.link_eq]; rfl) (by rw [State.link_eq]; rfl)
  | clz c rd rm => exact .checked h fun hp => .writeResult (ne_pc_of_noneIsPc hp (by simp))
  | mrs c r rd => exact .execMrs h
  | msrReg c r mask rm =>
    refine .conditional h fun h => ?_
    cases r with
    | false => exact .writeCpsrFields rfl rfl h
    | true => exact .writeSpsrFields h
  | msrImm c r mask rot imm =>
    refine .conditional h fun h => ?_
    cases r with
    | false => exact .writeCpsrFields rfl rfl h
    | true => exact .writeSpsrFields h
  | movImm c f rd rot imm => exact .conditional h (.move rfl rfl)
  | movShiftImm c f rd n sh rm => exact .conditional h (.move rfl rfl)
  | movShiftReg c f rd rs sh rm => exact .checked h fun _ => .move rfl rfl
  | addImm c f rn rd rot imm => exact .conditional h (.add rfl rfl)
  | addShiftImm c f rn rd n sh rm => exact .conditional h (.add rfl rfl)
  | addShiftReg c f rn rd rs sh rm => exact .checked h fun _ => .add rfl rfl
  | subImm c f rn rd rot imm => exact .conditional h (.sub rfl rfl)
  | subShiftImm c f rn rd n sh rm => exact .conditional h (.sub rfl rfl)
  | subShiftReg c f rn rd rs sh rm => exact .checked h fun _ => .sub rfl rfl
  | orrImm c f rn rd rot imm => exact .conditional h (.orr rfl rfl)
  | orrShiftImm c f rn rd n sh rm => exact .conditional h (.orr rfl rfl)
  | orrShiftReg c f rn rd rs sh rm => exact .checked h fun _ => .orr rfl rfl

end Sys2Proof.Machine
end

section
/-!
SUPPORT. What a step can do, and the package of every step invariant: a property that a landing, an exception, the fill
of the instruction TLB, an instruction and the step's own bookkeeping keep is kept by every step.
-/

namespace Sys2Proof.Machine

/-! ## The step, said once -/

/-- A fetch changes nothing, or fills the instruction TLB. -/
theorem translate_fills {va pa : Word} {s u : State} {w : Bool} {a : Attributes}
    (h : translate .instruction w va s = .ok u pa a) : u = s ∨ ∃ e, u = { s with itlb := s.itlb.fill e } :=
  translate_state h

theorem fetch_abort_fills {s u : State} {status : BitVec 5} (h : s.fetch = .abort u status) :
    u = s ∨ ∃ e, u = { s with itlb := s.itlb.fill e } := by
  unfold State.fetch at h
  split at h
  · injection h with h; exact .inl h.symm
  · cases h
  · next t pa a ht =>
    split at h
    · injection h with h; rw [← h]; exact translate_fills ht
    · split at h
      · injection h with h; rw [← h]; exact translate_fills ht
      · cases h

theorem fetch_word_fills {s u : State} {w : Word} (h : s.fetch = .word u w) :
    u = s ∨ ∃ e, u = { s with itlb := s.itlb.fill e } := by
  obtain ⟨pa, a, ht, _⟩ := fetch_word h
  exact translate_fills ht

/-- An instruction retired has executed, and settled CPWAIT's stage. -/
theorem retire_next {i : Instr} {s t : State} {a : Answer} (h : retire i s a = .next t) :
    ∃ v w, a = .next v ∧ settle i s v = some w ∧ t = w.endStep := by
  unfold retire at h
  split at h
  · next v =>
    split at h
    · cases h
    · next w hw => injection h with h; exact ⟨v, w, rfl, hw, h.symm⟩
  · cases h
  · cases h

/-- Everything one instruction's part of a step does. -/
theorem runInstruction_next {s t : State} (h : runInstruction s = .next t) :
    (∃ u status, s.ageOwed.fetch = .abort u status ∧ t = (u.takePrefetchAbort status).endStep)
    ∨ ∃ i u v w x, s.ageOwed.fetch = .word u x ∧ exec i u = .next v ∧ settle i u v = some w
      ∧ t = w.endStep := by
  unfold runInstruction at h
  split at h
  · next u status hf => injection h with h; exact .inl ⟨u, status, hf, h.symm⟩
  · cases h
  · next u x hf =>
    split at h
    · cases h
    · next i _ =>
      obtain ⟨v, w, he, hs, ht⟩ := retire_next h
      exact .inr ⟨i, u, v, w, x, hf, he, hs, ht⟩

/-- Everything a step that answers a state does: what may land lands, then an exception is taken at the boundary, or
the instruction's part of the step. -/
theorem step_next {s t : State} (h : step s = .next t) :
    ∃ l, landPending s.now.land s = some l
      ∧ ((∃ u, l.boundaryException = some u ∧ t = u.endStep) ∨ runInstruction l = .next t) := by
  unfold step cycle at h
  split at h
  · cases h
  · split at h
    · cases h
    · next l hl =>
      refine ⟨l, hl, ?_⟩
      split at h
      · cases h
      · split at h
        · next u hu => injection h with h; exact .inl ⟨u, hu, h.symm⟩
        · split at h
          · cases h
          · exact .inr h

/-- An exception taken at a boundary, from the state it is taken in: the aborts owed and the fault registers may have
changed. -/
theorem boundaryException_some {s t : State} (h : s.boundaryException = some t) :
    ∃ k link fsr far owed, t = { s.takeException k link with fsr := fsr, far := far, owed := owed } := by
  unfold State.boundaryException at h
  split at h
  · injection h with h; exact ⟨.dataAbort, _, _, _, _, h.symm⟩
  · split at h
    · injection h with h; exact ⟨.fiq, _, s.fsr, s.far, s.owed, h.symm⟩
    · split at h
      · injection h with h; exact ⟨.irq, _, s.fsr, s.far, s.owed, h.symm⟩
      · cases h

/-! ## Step invariants -/

/-- What it takes for a property of states to be kept by every step. -/
structure StepInvariant (P : State → Prop) : Prop where
  land : ∀ (s t : State) (e : Cp15Effect) (rest : List Cp15Effect), s.pending = e :: rest →
    e.apply { s with pending := rest } = some t → P s → P t
  exception : ∀ (s : State) (k : Exception) (link fsr far : Word) (owed : List OwedAbort), P s →
    P { s.takeException k link with fsr := fsr, far := far, owed := owed }
  fill : ∀ (s : State) (e : TlbEntry), P s → P { s with itlb := s.itlb.fill e }
  exec : ∀ (i : Instr) (s t : State), exec i s = .next t → P s → P t
  books : ∀ (s : State) (owed : List OwedAbort) (stage : CpwaitStage) (env : List Env) (tick : Nat), P s →
    P { s with owed := owed, cpwait := stage, env := env, tick := tick }

section
variable {P : State → Prop}

theorem StepInvariant.landPending (h : StepInvariant P) (n : Nat) {s t : State} (hl : landPending n s = some t)
    (hs : P s) : P t := by
  induction n generalizing s with
  | zero => injection hl with hl; rw [← hl]; exact hs
  | succ n ih =>
    unfold Machine.landPending at hl
    split at hl
    · injection hl with hl; rw [← hl]; exact hs
    · next e rest hp =>
      split at hl
      · cases hl
      · next u hu => exact ih hl (h.land s u e rest hp hu hs)

theorem StepInvariant.endStep (h : StepInvariant P) {s : State} (hs : P s) : P s.endStep :=
  h.books s s.owed s.cpwait s.env.tail (s.tick + 1) hs

theorem StepInvariant.filled (h : StepInvariant P) {s u : State}
    (hf : u = s ∨ ∃ e, u = { s with itlb := s.itlb.fill e })
    (hs : P s) : P u := by
  rcases hf with rfl | ⟨e, rfl⟩
  · exact hs
  · exact h.fill s e hs

theorem StepInvariant.settle (h : StepInvariant P) {i : Instr} {s t u : State} (hu : settle i s t = some u)
    (ht : P t) : P u := by
  have ht' : ∀ c, P { t with cpwait := c } := fun c => h.books t t.owed c t.env t.tick ht
  unfold Machine.settle at hu
  split at hu
  · exact h.landPending _ hu (ht' .idle)
  · injection hu with hu; rw [← hu]; exact ht' _

theorem StepInvariant.runInstruction (h : StepInvariant P) {s t : State} (hr : runInstruction s = .next t)
    (hs : P s) : P t := by
  have ha : P s.ageOwed := h.books s (s.owed.map OwedAbort.age) s.cpwait s.env s.tick hs
  rcases runInstruction_next hr with ⟨u, status, hf, rfl⟩ | ⟨i, u, v, w, x, hf, he, hw, rfl⟩
  · exact h.endStep (h.exception u .prefetchAbort _ _ _ u.owed (h.filled (fetch_abort_fills hf) ha))
  · exact h.endStep (h.settle hw (h.exec i u v he (h.filled (fetch_word_fills hf) ha)))

/-- A step invariant is kept by every step. -/
theorem StepInvariant.step (h : StepInvariant P) {s t : State} (hs : step s = .next t) (hp : P s) : P t := by
  obtain ⟨l, hl, h'⟩ := step_next hs
  have hpl : P l := h.landPending _ hl hp
  rcases h' with ⟨u, hu, rfl⟩ | hr
  · obtain ⟨k, link, fsr, far, owed, rfl⟩ := boundaryException_some hu
    exact h.endStep (h.exception l k link fsr far owed hpl)
  · exact h.runInstruction hr hpl

end

/-! ## The TLBs (rules R51, R127, R128) -/

theorem State.TlbsOrdered.congr {s t : State} (h : s.TlbsOrdered) (hi : t.itlb = s.itlb) (hd : t.dtlb = s.dtlb) :
    t.TlbsOrdered := by
  unfold State.TlbsOrdered
  rw [hi, hd]
  exact h

/-- Every effect that lands keeps the TLBs ordered. -/
theorem Cp15Effect.apply_ordered {e : Cp15Effect} {s t : State} (h : e.apply s = some t) (hs : s.TlbsOrdered) :
    t.TlbsOrdered := by
  cases e <;> simp only [Cp15Effect.apply] at h
  case lock side mva e =>
    split at h
    · cases h
    · injection h with h; rw [← h]; exact hs.setTlb side ((hs.tlb side).lock e)
  case fill side mva e =>
    injection h with h
    rw [← h]
    split
    · exact hs
    · exact hs.setTlb side ((hs.tlb side).fill e)
  case invalidateBoth => injection h with h; rw [← h]; exact ⟨hs.1.invalidate, hs.2.invalidate⟩
  case invalidate side => injection h with h; rw [← h]; exact hs.setTlb side (hs.tlb side).invalidate
  case invalidateEntry side mva =>
    injection h with h; rw [← h]; exact hs.setTlb side ((hs.tlb side).invalidateEntry mva)
  case unlock side => injection h with h; rw [← h]; exact hs.setTlb side (s.tlb side).unlock_ordered
  all_goals (injection h with h; rw [← h]; exact hs)

theorem Executed.ordered {i : Instr} {s t : State} (h : Executed i s t) (hs : s.TlbsOrdered) : t.TlbsOrdered := by
  cases h.effect with
  | access keeps _ core _ => exact (keeps.ordered hs).congr core.itlb_eq core.dtlb_eq
  | control write core _ =>
    have hk := State.writeCp15_step write
    exact hs.congr (core.itlb_eq.trans hk.itlb_eq) (core.dtlb_eq.trans hk.dtlb_eq)

theorem tlbsOrdered_stepInvariant : StepInvariant State.TlbsOrdered where
  land _ _ _ _ _ ha hs := Cp15Effect.apply_ordered ha hs
  exception s k link _ _ _ hs :=
    hs.congr (State.takeException_itlb s k link) (State.takeException_dtlb s k link)
  fill _ e hs := ⟨hs.1.fill e, hs.2⟩
  exec _ _ _ he hs := (exec_executed he).ordered hs
  books _ _ _ _ _ hs := hs

/-- Settles O7: every operation on a TLB keeps its order. -/
theorem stepKeepsTlbsOrdered : Obligations.StepKeepsTlbsOrdered :=
  fun _ _ h => tlbsOrdered_stepInvariant.step h

/-! ## Coprocessor 15's registers (rules R32, R88, R114, R256) -/

theorem controlStored_bit (v : Word) {k : Nat} (hk : k < 32) :
    (controlStored v).getLsbD k = (v.getLsbD k || decide (3 ≤ k ∧ k ≤ 6)) := by
  have e : ∀ j : Fin 32, (0x00000078 : Word).getLsbD j = decide (3 ≤ j.val ∧ j.val ≤ 6) := by decide
  rw [controlStored, BitVec.getLsbD_or]
  exact congrArg _ (e ⟨k, hk⟩)

theorem controlStored_idem (v : Word) : controlStored (controlStored v) = controlStored v := by
  unfold controlStored
  rw [BitVec.or_assoc, BitVec.or_self]

/-- What a write stores is legal unless it asks for the data cache with the MMU off (rule R88). -/
theorem controlLegal_controlStored {v : Word} (h : ¬ (v.getLsbD 0 = false ∧ v.getLsbD 2 = true)) :
    ControlLegal (controlStored v) := by
  refine ⟨controlStored_idem v, fun h0 => ?_⟩
  rw [controlStored_bit v (by decide)] at h0 ⊢
  cases h2 : v.getLsbD 2 with
  | false => rfl
  | true => exact absurd ⟨by simpa using h0, h2⟩ h

/-- What a write of coprocessor 15 does to its registers and to the list of pending effects: nothing, or it issues one
effect, which MRC sees at once. -/
def Issues (s u : State) : Prop :=
  (u.cp15 = s.cp15 ∧ u.pending = s.pending)
  ∨ ∃ e : Cp15Effect, u.pending = s.pending ++ [e] ∧ u.cp15 = e.registers s.cp15
      ∧ ∀ v, e = .setControl v → ControlLegal v

/-- A write that changes none of the registers above. -/
theorem Issues.none {s u : State} (hc : u.cp15 = s.cp15) (hp : u.pending = s.pending) : Issues s u := .inl ⟨hc, hp⟩

/-- A write of a register other than the Control Register, or a function that writes none, issued. -/
theorem Issues.one {s u : State} (e : Cp15Effect) (hp : u.pending = s.pending ++ [e])
    (hr : u.cp15 = e.registers s.cp15) (hc : ∀ v, e ≠ .setControl v) : Issues s u :=
  .inr ⟨e, hp, hr, fun v h => absurd h (hc v)⟩

theorem Issues.writeCp15Register {s u : State} {crn crm : BitVec 4} {op2 : BitVec 3} {v : Word}
    (h : s.writeCp15Register crn crm op2 v = some (.ok u)) : Issues s u := by
  unfold State.writeCp15Register at h
  split at h
  · split at h
    · cases h
    · next hl =>
      split at h
      · cases h
      · cases h
        exact .inr ⟨_, rfl, rfl, fun w hw => by cases hw; exact controlLegal_controlStored hl⟩
  split at h
  · cases h; exact .one (.setAuxControl v) rfl rfl nofun
  split at h
  · cases h; exact .one (.setTtb v) rfl rfl nofun
  split at h
  · cases h; exact .one (.setDacr v) rfl rfl nofun
  split at h
  · cases h; exact .none rfl rfl
  split at h
  · cases h; exact .none rfl rfl
  split at h
  · cases h; exact .none rfl rfl
  split at h
  · cases h; exact .one (.setPid v) rfl rfl nofun
  split at h
  · cases h; exact .one (.setCpar v) rfl rfl nofun
  · cases h

theorem Issues.translateAndLock {s u : State} {t : Side} {va : Word} (h : s.translateAndLock t va = .ok u) :
    Issues s u := by
  obtain ⟨_, e, _, rfl⟩ := State.translateAndLock_ok h
  exact .one (.lock t _ e) rfl rfl nofun

theorem Issues.tlbFunction {s u : State} {crn crm : BitVec 4} {op2 : BitVec 3} {v : Word}
    (h : s.tlbFunction crn crm op2 v = some (.ok u)) : Issues s u := by
  unfold State.tlbFunction at h
  split at h
  · cases h; exact .one .invalidateBoth rfl rfl nofun
  split at h
  · cases h; exact .one (.invalidate .instruction) rfl rfl nofun
  split at h
  · cases h; exact .one (.invalidateEntry .instruction _) rfl rfl nofun
  split at h
  · cases h; exact .one (.invalidate .data) rfl rfl nofun
  split at h
  · cases h; exact .one (.invalidateEntry .data _) rfl rfl nofun
  split at h
  · exact .translateAndLock (Option.some.inj h)
  split at h
  · cases h; exact .one (.unlock .instruction) rfl rfl nofun
  split at h
  · exact .translateAndLock (Option.some.inj h)
  split at h
  · cases h; exact .one (.unlock .data) rfl rfl nofun
  · cases h

theorem Issues.lockCacheLine {s u : State} {va : Word} (h : s.lockCacheLine va = .ok u) : Issues s u := by
  rcases State.lockCacheLine_ok h with rfl | ⟨e, _, rfl⟩
  · exact .none rfl rfl
  · exact .one (.fill .instruction _ e) rfl rfl nofun

theorem Issues.cacheFunction {s u : State} {crn crm : BitVec 4} {op2 : BitVec 3} {v : Word}
    (h : s.cacheFunction crn crm op2 v = some (.ok u)) : Issues s u := by
  unfold State.cacheFunction at h
  split at h
  · split at h
    · cases h
    · cases h; exact .none rfl rfl
  split at h
  · cases h; exact .none rfl rfl
  split at h
  · cases h; exact .none rfl rfl
  split at h
  · cases h
  split at h
  · exact .lockCacheLine (Option.some.inj h)
  split at h
  · cases h; exact .none rfl rfl
  split at h
  · cases h; exact .none rfl rfl
  · cases h

theorem Issues.writeCp15 {s u : State} {crn crm : BitVec 4} {op2 : BitVec 3} {v : Word}
    (h : s.writeCp15 crn crm op2 v = .ok u) : Issues s u := by
  unfold State.writeCp15 at h
  split at h
  · next r hr => subst h; exact .writeCp15Register hr
  · split at h
    · next r hr => subst h; exact .tlbFunction hr
    · split at h
      · next r hr => subst h; exact .cacheFunction hr
      · cases h

/-- What landing does to the registers in effect (rules R256, R258). -/
theorem Cp15Effect.apply_registers {e : Cp15Effect} {s t : State} (h : e.apply s = some t) :
    t.eff = e.registers s.eff ∧ t.pending = s.pending ∧ t.cp15 = s.cp15 := by
  have tlb : ∀ side v, (s.setTlb side v).eff = s.eff ∧ (s.setTlb side v).pending = s.pending
      ∧ (s.setTlb side v).cp15 = s.cp15 := fun side v =>
    ⟨State.setTlb_eff s side v, State.setTlb_pending s side v, State.setTlb_cp15 s side v⟩
  cases e <;> simp only [Cp15Effect.apply] at h
  case lock side mva e =>
    split at h
    · cases h
    · injection h with h; rw [← h]; exact tlb side _
  case fill side mva e =>
    injection h with h
    rw [← h]
    split
    · exact ⟨rfl, rfl, rfl⟩
    · exact tlb side _
  case invalidate side => injection h with h; rw [← h]; exact tlb side _
  case invalidateEntry side mva => injection h with h; rw [← h]; exact tlb side _
  case unlock side => injection h with h; rw [← h]; exact tlb side _
  all_goals (injection h with h; rw [← h]; exact ⟨rfl, rfl, rfl⟩)

/-- The Control Register once an effect has landed: legal where it was and the effect writes none but a legal one. -/
theorem registers_controlLegal {e : Cp15Effect} {r : Cp15} (hr : ControlLegal r.control)
    (he : ∀ v, e = .setControl v → ControlLegal v) : ControlLegal (e.registers r).control := by
  cases e
  case setControl v => exact he v rfl
  all_goals exact hr

theorem State.ControlsLegal.congr {s t : State} (h : s.ControlsLegal) (hc : t.cp15 = s.cp15) (he : t.eff = s.eff)
    (hp : t.pending = s.pending) : t.ControlsLegal := by
  unfold State.ControlsLegal
  rw [hc, he, hp]
  exact h

theorem State.Cp15Agrees.congr {s t : State} (h : s.Cp15Agrees) (hc : t.cp15 = s.cp15) (he : t.eff = s.eff)
    (hp : t.pending = s.pending) : t.Cp15Agrees := by
  unfold State.Cp15Agrees
  rw [hc, he, hp]
  exact h

theorem Issues.legal {s u : State} (h : Issues s u) (he : u.eff = s.eff) (hs : s.ControlsLegal) : u.ControlsLegal := by
  rcases h with ⟨hc, hp⟩ | ⟨e, hp, hc, hl⟩
  · exact hs.congr hc he hp
  · obtain ⟨hs1, hs2, hs3⟩ := hs
    refine ⟨hc ▸ registers_controlLegal hs1 hl, he ▸ hs2, fun v hv => ?_⟩
    rw [hp, List.mem_append, List.mem_singleton] at hv
    exact hv.elim (hs3 v) fun x => hl v x.symm

theorem Issues.agrees {s u : State} (h : Issues s u) (he : u.eff = s.eff) (hs : s.Cp15Agrees) : u.Cp15Agrees := by
  rcases h with ⟨hc, hp⟩ | ⟨e, hp, hc, _⟩
  · exact hs.congr hc he hp
  · unfold State.Cp15Agrees at *
    rw [hp, he, hc, List.foldl_append, hs]
    rfl

theorem Executed.legal {i : Instr} {s t : State} (h : Executed i s t) (hs : s.ControlsLegal) : t.ControlsLegal := by
  cases h.effect with
  | access keeps _ core _ =>
    exact hs.congr (core.cp15_eq.trans keeps.step.cp15_eq) (core.eff_eq.trans keeps.step.eff_eq)
      (core.pending_eq.trans keeps.step.pending_eq)
  | control write core _ =>
    exact ((Issues.writeCp15 write).legal (State.writeCp15_step write).eff_eq hs).congr core.cp15_eq core.eff_eq
      core.pending_eq

theorem Executed.agrees {i : Instr} {s t : State} (h : Executed i s t) (hs : s.Cp15Agrees) : t.Cp15Agrees := by
  cases h.effect with
  | access keeps _ core _ =>
    exact hs.congr (core.cp15_eq.trans keeps.step.cp15_eq) (core.eff_eq.trans keeps.step.eff_eq)
      (core.pending_eq.trans keeps.step.pending_eq)
  | control write core _ =>
    exact ((Issues.writeCp15 write).agrees (State.writeCp15_step write).eff_eq hs).congr core.cp15_eq core.eff_eq
      core.pending_eq

theorem controlsLegal_stepInvariant : StepInvariant State.ControlsLegal where
  land s t e rest hp ha hs := by
    obtain ⟨he, hp', hc⟩ := Cp15Effect.apply_registers ha
    obtain ⟨hs1, hs2, hs3⟩ := hs
    rw [hp] at hs3
    refine ⟨hc ▸ hs1, he ▸ registers_controlLegal hs2 fun v hv => hs3 v (by simp [hv]), fun v hv => hs3 v ?_⟩
    rw [hp'] at hv
    exact List.mem_cons_of_mem e hv
  exception s k link _ _ _ hs :=
    hs.congr (State.takeException_cp15 s k link) (State.takeException_eff s k link)
      (State.takeException_pending s k link)
  fill _ _ hs := hs
  exec _ _ _ he hs := (exec_executed he).legal hs
  books _ _ _ _ _ hs := hs

theorem cp15Agrees_stepInvariant : StepInvariant State.Cp15Agrees where
  land s t e rest hp ha hs := by
    obtain ⟨he, hp', hc⟩ := Cp15Effect.apply_registers ha
    unfold State.Cp15Agrees at *
    rw [hp] at hs
    rw [he, hp', hc]
    exact hs
  exception s k link _ _ _ hs :=
    hs.congr (State.takeException_cp15 s k link) (State.takeException_eff s k link)
      (State.takeException_pending s k link)
  fill _ _ hs := hs
  exec _ _ _ he hs := (exec_executed he).agrees hs
  books _ _ _ _ _ hs := hs

/-- Settles O8: what an MCR writes is legal and is issued as it is written, and what lands was issued. -/
theorem stepKeepsControl : Obligations.StepKeepsControl :=
  ⟨fun _ _ h => controlsLegal_stepInvariant.step h, fun _ _ h => cp15Agrees_stepInvariant.step h⟩

/-! ## The mode and the program counter (rules R25, R27, R300) -/

theorem modeLegal_stepInvariant : StepInvariant State.ModeLegal where
  land s t e rest _ ha hs := by
    have hl : LandStep _ t := Cp15Effect.apply_step ha
    unfold LandStep at hl
    rw [hl]
    exact hs
  exception s k link _ _ _ _ := modeLegal_of_exception (State.takeException_cpsr s k link)
  fill _ _ hs := hs
  exec _ _ _ he hs := (exec_executed he).status.mode hs
  books _ _ _ _ _ hs := hs

theorem pcAligned_stepInvariant : StepInvariant State.PcAligned where
  land s t e rest _ ha hs := by
    have hl : LandStep _ t := Cp15Effect.apply_step ha
    unfold LandStep at hl
    rw [hl]
    exact hs
  exception s k link _ _ _ _ := pcAligned_of_exception (State.takeException_pc s k link)
  fill _ _ hs := hs
  exec _ _ _ he hs := (exec_executed he).status.pc hs
  books _ _ _ _ _ hs := hs

/-- Settles O9: an instruction, an exception and a landing each keep the mode and the alignment. -/
theorem stepKeepsModeAndPc : Obligations.StepKeepsModeAndPc :=
  ⟨fun _ _ h => modeLegal_stepInvariant.step h, fun _ _ h => pcAligned_stepInvariant.step h⟩

/-! ## The flags, memory and the accumulator -/

/-- Settles O27, from what an instruction can do to the status register. -/
theorem flagsChangeOnlyByTheirWriters : Obligations.FlagsChangeOnlyByTheirWriters := by
  intro i s t h
  obtain ⟨_, hs⟩ := exec_executed h
  refine ⟨fun hw => ?_, hs.sticky⟩
  exact ⟨hs.conditions hw 31 (by decide) (by decide), hs.conditions hw 30 (by decide) (by decide),
    hs.conditions hw 29 (by decide) (by decide), hs.conditions hw 28 (by decide) (by decide)⟩

theorem Executed.memory {i : Instr} {s t : State} (h : Executed i s t) (hi : i.storesToMemory = false) :
    t.mem = s.mem := by
  cases h.effect with
  | access _ memory core _ => exact core.mem_eq.trans (memory hi)
  | control write core _ => exact core.mem_eq.trans (State.writeCp15_step write).mem_eq

theorem Executed.accumulator {i : Instr} {s t : State} (h : Executed i s t) (hi : i.writesAccumulator = false) :
    t.acc0 = s.acc0 := by
  cases h.effect with
  | access keeps _ _ acc0 => exact (acc0 hi).trans keeps.step.acc0_eq
  | control write _ acc0 => exact acc0.trans (State.writeCp15_step write).acc0_eq

/-- Settles O39, from what an instruction can do to the machine. -/
theorem memoryAndAccumulatorWriters : Obligations.MemoryAndAccumulatorWriters :=
  ⟨fun _ _ _ hi h a => by rw [(exec_executed h).memory hi], fun _ _ _ hi h => (exec_executed h).accumulator hi⟩

end Sys2Proof.Machine
end

section
/-!
The condition codes, the two coprocessor gates, the state after reset, and the step of a decoded instruction.
-/

namespace Sys2Proof.Machine

/-! ## Taking an exception (rules R330, R331, R334) -/

theorem Exception.cpsr_low (k : Exception) (c : Word) :
    (k.cpsr c).getLsbD 5 = false ∧ (k.cpsr c).getLsbD 7 = true
      ∧ (k.cpsr c).getLsbD 6 = (decide (k = .fiq) || c.getLsbD 6) := by
  refine ⟨?_, ?_, ?_⟩
  · rw [Exception.cpsr_bit, BitVec.getLsbD_setWidth, BitVec.getLsbD_of_ge k.mode.toBits 5 (by decide)]
    simp
  · rw [Exception.cpsr_bit]; simp
  · rw [Exception.cpsr_bit, BitVec.getLsbD_setWidth, BitVec.getLsbD_of_ge k.mode.toBits 6 (by decide)]
    simp [Bool.or_comm]

theorem State.takeException_spsr_same (s : State) (k : Exception) (link : Word) :
    (s.takeException k link).spsr k.mode = some s.cpsr := by
  cases k <;> rfl

theorem State.takeException_spsr_other (s : State) (k : Exception) (link : Word) {m : Mode} (h : m ≠ k.mode) :
    (s.takeException k link).spsr m = s.spsr m := by
  cases k <;> cases m <;> simp_all [State.spsr, Exception.mode]

/-- Everything taking an exception does. -/
theorem State.takeException_entered (s : State) (k : Exception) (link : Word) :
    Entered k link s (s.takeException k link) := by
  obtain ⟨hT, hI, hF⟩ := k.cpsr_low s.cpsr
  have hc : (s.takeException k link).cpsr = k.cpsr s.cpsr := State.takeException_cpsr s k link
  exact
    { link := by simp
      registers := fun j hj => by
        rw [State.takeException_gpr]
        exact Vector.getElem_set_ne _ _ fun e => hj (Fin.ext e.symm)
      saved := s.takeException_spsr_same k link
      otherSaved := fun _ hm => s.takeException_spsr_other k link hm
      mode := by unfold State.mode; rw [hc, psrMode_exception]; rfl
      arm := by unfold State.thumb; rw [hc]; exact hT
      irqDisabled := by unfold State.irqDisabled; rw [hc]; exact hI
      fiqDisabled := by unfold State.fiqDisabled; rw [hc]; exact hF
      status := fun j h8 h32 => by rw [hc]; exact k.cpsr_high s.cpsr h8 h32
      pc := State.takeException_pc s k link
      pastTop := State.takeException_pastTop s k link
      acc0 := State.takeException_acc0 s k link
      cp15 := State.takeException_cp15 s k link
      eff := State.takeException_eff s k link
      dcacheLock := State.takeException_dcacheLock s k link
      pending := State.takeException_pending s k link
      cpwait := State.takeException_cpwait s k link
      itlb := State.takeException_itlb s k link
      data := .of (by simp)
      env := State.takeException_env s k link
      tick := State.takeException_tick s k link }

/-- The Undefined Instruction exception of the executing instruction (rules R334, R356). -/
theorem State.takeUndefined_entered (s : State) :
    ∃ t, (.next s.takeUndefined : Answer) = .next t ∧ Entered .undefined (s.pc + 4) s t ∧ FaultRegistersKept s t :=
  ⟨_, rfl, s.takeException_entered _ _, rfl, rfl⟩

/-! ## The condition codes (rule R28) -/

/-- An instruction whose condition fails only advances the program counter. -/
theorem exec_of_condition_failed {i : Instr} {c : Cond} {s : State} (hi : i.condition = some c)
    (hc : conditionPassed c s = false) : exec i s = .next s.advance := by
  cases i
  case pldImm => cases hi
  case pldReg => cases hi
  case blxImm => cases hi
  all_goals (injection hi with hi; subst hi; exact conditional_false hc)

/-- Settles O10: the codes and conditions by their truth tables, the rest from `conditional`. -/
theorem conditionCodesGovernExecution : Obligations.ConditionCodesGovernExecution := by
  refine ⟨by decide, fun s => ?_, fun i c s hi hc => exec_of_condition_failed hi hc⟩
  unfold conditionPassed
  cases s.n <;> cases s.z <;> cases s.c <;> cases s.v <;> decide

/-! ## The gates of coprocessors 0 and 15 (rules R40, R46) -/

/-- An instruction behind the accumulator's gate, with the gate shut. -/
theorem exec_gate_shut {c : Cond} {s : State} {b : Answer} (hc : conditionPassed c s = true)
    (hg : s.eff.cpar.getLsbD 0 = false) : conditional c s (accumulatorGate s b) = .next s.takeUndefined := by
  rw [conditional_true hc, accumulatorGate_shut hg]

/-- Settles O16: each of the eight accesses stands behind the gate. -/
theorem accumulatorGateTraps : Obligations.AccumulatorGateTraps := by
  intro i c a b s hi hc hg
  have hx : exec i s = .next s.takeUndefined := by
    simp only [List.mem_cons, List.not_mem_nil, or_false] at hi
    rcases hi with rfl | rfl | rfl | rfl | rfl | rfl | rfl | rfl <;> exact exec_gate_shut hc hg
  rw [hx]
  exact s.takeUndefined_entered

/-- Settles O52: MCR and MRC ask for a privileged mode first. -/
theorem cp15TrapsInUserMode : Obligations.Cp15TrapsInUserMode := by
  intro i c crn crm op2 rd s hi hc hm
  have hu : s.privileged = false := by unfold State.privileged; rw [hm]; rfl
  have hx : exec i s = .next s.takeUndefined := by
    rcases hi with rfl | rfl <;> exact (conditional_true hc).trans (privilegedAccess_false hu)
  rw [hx]
  exact s.takeUndefined_entered

/-! ## The state after reset (rules R51, R52, R392) -/

/-- Settles O5: every field is a literal. -/
theorem resetState : Obligations.ResetState := by
  have order : Tlb.reset.Ordered := by unfold Tlb.Ordered; decide
  refine ⟨by decide, by unfold State.MemoryCanonical; decide, ⟨order, order⟩, ?_,
    by unfold State.Cp15Agrees; decide, by unfold State.ModeLegal; decide, by unfold State.PcAligned; decide⟩
  have legal : ControlLegal Cp15.reset.control := by unfold ControlLegal; decide
  exact ⟨legal, legal, fun _ h => by cases h⟩

/-! ## The step of a decoded instruction (rules R25, R96, R116, R256) -/

theorem completesCpwait_iff {i : Instr} {s : State} :
    completesCpwait i s = true ↔ i = cpwaitSub ∧ s.cpwait = .afterMov := by
  simp [completesCpwait]

/-- The end of the instruction that completes CPWAIT: everything pending lands. -/
theorem settle_completing {i : Instr} {s t : State} (hi : i = cpwaitSub) (hs : s.cpwait = .afterMov) :
    settle i s t = landPending t.pending.length { t with cpwait := .idle } := by
  unfold settle
  rw [if_pos (completesCpwait_iff.2 ⟨hi, hs⟩)]

/-- Landing takes as many effects from the front of the list as may land. -/
theorem landPending_pending (n : Nat) {s t : State} (h : landPending n s = some t) :
    t.pending = s.pending.drop n := by
  induction n generalizing s with
  | zero => injection h with h; rw [h]; rfl
  | succ n ih =>
    unfold landPending at h
    split at h
    · next hp => injection h with h; rw [← h, hp]; rfl
    · next e rest hp =>
      split at h
      · cases h
      · next u hu =>
        obtain ⟨_, hu', _⟩ := Cp15Effect.apply_registers hu
        rw [ih h, hu', hp]
        rfl

/-- A fetch that translates and suffers no error reads a word. -/
theorem fetch_of_translates {s t : State} {pa : Word} {a : Attributes}
    (ht : translate .instruction false s.pc s = .ok t pa a) (he : s.now.fetchError = false)
    (hp : s.now.fetchParity = false ∨ s.instructionCacheOn = false ∨ a.c = false) :
    s.fetch = .word t (t.fetchedWord ⟨wordAlign pa, a.p⟩) := by
  have hq : (s.now.fetchParity && s.instructionCacheOn && a.c) = false := by
    rcases hp with h | h | h <;> simp [h]
  unfold State.fetch
  rw [ht]
  simp only [he, hq, Bool.false_eq_true, if_false]

/-- What a fetch's translation shares with the state it began in. -/
theorem translate_instruction_state {s t : State} {va pa : Word} {w : Bool} {a : Attributes}
    (h : translate .instruction w va s = .ok t pa a) : t = { s with itlb := t.itlb } := by
  rcases translate_fills h with rfl | ⟨e, rfl⟩ <;> rfl

/-- What a step runs in: the state before it, but for what has landed, the age of the aborts owed, and the
instruction TLB. -/
theorem Runs.state {s u : State} {i : Instr} (h : Runs s i u) :
    ∃ (t : State) (pa : Word) (a : Attributes) (w : Word), landPending s.now.land s = some t
      ∧ translate .instruction false s.pc t.ageOwed = .ok u pa a ∧ FetchReads s pa w ∧ decodeWord w = .ok i
      ∧ u.eff = t.eff ∧ u.dtlb = t.dtlb
      ∧ u = { s with eff := u.eff, pending := s.pending.drop s.now.land, itlb := u.itlb, dtlb := u.dtlb,
                     owed := s.owed.map OwedAbort.age } := by
  obtain ⟨_, t, hl, _, _, _, w, hf, hd⟩ := h
  obtain ⟨pa, a, ht, hw⟩ := fetch_word hf
  have hpend : t.pending = s.pending.drop s.now.land := landPending_pending _ hl
  have hland : LandStep s t := landPending_step _ hl
  have hu : u = { t.ageOwed with itlb := u.itlb } := translate_instruction_state ht
  unfold LandStep at hland
  rw [hpend] at hland
  have hpc : t.ageOwed.pc = s.pc := by rw [State.ageOwed_pc, hland]
  have hmem : u.mem = s.mem := by rw [hu, hland]; rfl
  have hstored : u.stored = s.stored := by rw [hu, hland]; rfl
  have henv : u.env = s.env := by rw [hu, hland]; rfl
  rw [hpc] at ht
  refine ⟨t, pa, a, w, hl, ht, .of hw hmem hstored henv, hd, by rw [hu]; rfl, by rw [hu]; rfl, ?_⟩
  rw [hu, hland]
  rfl

/-- Settles O3, from what retiring an instruction, landing and fetching do. -/
theorem stepRunsDecoded : Obligations.StepRunsDecoded := by
  refine ⟨fun s u i h => ?_, fun _ _ _ h => h.state, fun s t pa a ht he hp => ?_⟩
  · rw [h.retires]
    refine ⟨fun f hx => by rw [hx]; rfl, fun r hx => by rw [hx]; rfl, fun t hx hn => ?_, fun t v hx hi hs hl => ?_,
      fun t hx hi hs hl => ?_⟩
    · have hc : completesCpwait i u = false := Bool.eq_false_iff.2 fun e => hn (completesCpwait_iff.1 e)
      rw [hx]
      simp only [retire, settle_other hc]
      rfl
    · rw [hx]
      simp only [retire, settle_completing hi hs, hl]
      rfl
    · rw [hx]
      simp only [retire, settle_completing hi hs, hl]
  · have hk := translate_instruction_state ht
    exact ⟨_, fetch_of_translates ht he hp, .of rfl (by rw [hk]) (by rw [hk]) (by rw [hk])⟩

end Sys2Proof.Machine
end

section
/-!
MRC and MCR to coprocessor 15: the triples of the registers and of the functions, and what a transfer that completes
leaves alone (rules R241, R242).
-/

namespace Sys2Proof.Machine

/-! ## The triples that name something (rules R31, R44, R247 to R253) -/

/-- The triples of the registers that MCR writes. -/
def storageTriples : List (BitVec 4 × BitVec 4 × BitVec 3) :=
  [(1, 0, 0), (1, 0, 1), (2, 0, 0), (3, 0, 0), (5, 0, 0), (6, 0, 0), (9, 2, 0), (13, 0, 0), (15, 1, 0)]

/-- The triples of the TLB functions. -/
def tlbTriples : List (BitVec 4 × BitVec 4 × BitVec 3) :=
  [(8, 7, 0), (8, 5, 0), (8, 5, 1), (8, 6, 0), (8, 6, 1), (10, 4, 0), (10, 4, 1), (10, 8, 0), (10, 8, 1)]

/-- The triples of the cache functions. -/
def cacheTriples : List (BitVec 4 × BitVec 4 × BitVec 3) :=
  [(7, 7, 0), (7, 6, 0), (7, 6, 1), (7, 5, 0), (7, 5, 1), (7, 5, 6), (7, 10, 1), (7, 10, 4), (7, 2, 5), (9, 1, 0),
    (9, 1, 1), (9, 2, 1)]

section
variable {s u : State} {crn crm : BitVec 4} {op2 : BitVec 3} {c : Cond} {rd : Reg} {v : Word}

/-- A triple that names no storage register is not written. -/
theorem writeCp15Register_none (h : (crn, crm, op2) ∉ storageTriples) : s.writeCp15Register crn crm op2 v = none := by
  simp only [storageTriples, List.mem_cons, List.not_mem_nil, Prod.mk.injEq, or_false, not_or] at h
  obtain ⟨h1, h2, h3, h4, h5, h6, h7, h8, h9⟩ := h
  unfold State.writeCp15Register
  rw [if_neg h1, if_neg h2, if_neg h3, if_neg h4, if_neg h5, if_neg h6, if_neg h7, if_neg h8, if_neg h9]

/-- A triple that names no TLB function is none. -/
theorem tlbFunction_none (h : (crn, crm, op2) ∉ tlbTriples) : s.tlbFunction crn crm op2 v = none := by
  simp only [tlbTriples, List.mem_cons, List.not_mem_nil, Prod.mk.injEq, or_false, not_or] at h
  obtain ⟨h1, h2, h3, h4, h5, h6, h7, h8, h9⟩ := h
  unfold State.tlbFunction
  rw [if_neg h1, if_neg h2, if_neg h3, if_neg h4, if_neg h5, if_neg h6, if_neg h7, if_neg h8, if_neg h9]

/-- A triple that names no cache function is none. -/
theorem cacheFunction_none (h : (crn, crm, op2) ∉ cacheTriples) : s.cacheFunction crn crm op2 v = none := by
  simp only [cacheTriples, List.mem_cons, List.not_mem_nil, Prod.mk.injEq, or_false, not_or] at h
  obtain ⟨h1, h2, h3, h4, h5, h6, h7, h8, h9, h10, h11, h12⟩ := h
  unfold State.cacheFunction
  rw [if_neg, if_neg, if_neg, if_neg h9, if_neg h10, if_neg h11, if_neg h12]
  · rintro ⟨x, y, z | z⟩
    · exact h7 ⟨x, y, z⟩
    · exact h8 ⟨x, y, z⟩
  · rintro ⟨x, y, z | z | z⟩
    · exact h4 ⟨x, y, z⟩
    · exact h5 ⟨x, y, z⟩
    · exact h6 ⟨x, y, z⟩
  · rintro ⟨x, y | y | y⟩
    · exact h1 ⟨x, y⟩
    · exact h2 ⟨x, y⟩
    · exact h3 ⟨x, y⟩

/-- A TLB function. -/
theorem writeCp15_tlb {r : Res State} (hn : (crn, crm, op2) ∉ storageTriples)
    (h : s.tlbFunction crn crm op2 v = some r) : s.writeCp15 crn crm op2 v = r := by
  unfold State.writeCp15
  rw [writeCp15Register_none hn, h]

/-- A triple that names nothing (decision D11). -/
theorem writeCp15_unlisted (h1 : (crn, crm, op2) ∉ storageTriples) (h2 : (crn, crm, op2) ∉ tlbTriples)
    (h3 : (crn, crm, op2) ∉ cacheTriples) : s.writeCp15 crn crm op2 v = .refused .cp15Unlisted := by
  unfold State.writeCp15
  rw [writeCp15Register_none h1, tlbFunction_none h2, cacheFunction_none h3]

/-! ## MCR that reaches its register -/

/-- MCR in a privileged mode, its register below R15. -/
theorem exec_mcr (hc : conditionPassed c s = true) (hp : s.privileged = true) (hr : rd ≠ Reg.pc) :
    exec (.mcr c crn rd op2 crm) s
      = ((s.writeCp15 crn crm op2 (s.reg rd)).bind fun t => .ok t.advance).finish s :=
  (conditional_true hc).trans ((privilegedAccess_true hp).trans (predictably_true (bne_iff_ne.2 hr)))

theorem ControlStep.advanced (h : ControlStep s u) : Advanced s u.advance := by
  unfold ControlStep at h
  rw [h]
  exact ⟨rfl, rfl⟩

theorem ControlStep.frame (h : ControlStep s u) : ControlFrame s u.advance := by
  unfold ControlStep at h
  rw [h]
  exact ⟨rfl, rfl, fun m => by cases m <;> rfl, rfl, rfl, rfl, rfl, .of (by simp), rfl, rfl⟩

/-- An MCR that completes: what it writes, and what it leaves alone. -/
theorem exec_mcr_ok (hc : conditionPassed c s = true) (hp : s.privileged = true) (hr : rd ≠ Reg.pc)
    (hw : s.writeCp15 crn crm op2 (s.reg rd) = .ok u) :
    ∃ t, exec (.mcr c crn rd op2 crm) s = .next t ∧ t = u.advance ∧ Advanced s t ∧ ControlFrame s t := by
  have hk : ControlStep s u := State.writeCp15_step hw
  refine ⟨_, ?_, rfl, hk.advanced, hk.frame⟩
  rw [exec_mcr hc hp hr, hw]
  rfl

/-- An MCR without a meaning. -/
theorem exec_mcr_refused {r : Refusal} (hc : conditionPassed c s = true) (hp : s.privileged = true) (hr : rd ≠ Reg.pc)
    (hw : s.writeCp15 crn crm op2 (s.reg rd) = .refused r) : exec (.mcr c crn rd op2 crm) s = .refused r := by
  rw [exec_mcr hc hp hr, hw]
  rfl

/-! ## The registers MCR writes -/

/-- A register that lands later: MRC sees the write at once, and it is pending. -/
theorem writeCp15_late {new : Cp15} {e : Cp15Effect}
    (h : (crn, crm, op2, new, e) ∈ [((1 : BitVec 4), (0 : BitVec 4), (1 : BitVec 3), { s.cp15 with auxControl := v },
        Cp15Effect.setAuxControl v),
      (2, 0, 0, { s.cp15 with ttb := v }, .setTtb v), (3, 0, 0, { s.cp15 with dacr := v }, .setDacr v),
      (13, 0, 0, { s.cp15 with pid := v }, .setPid v), (15, 1, 0, { s.cp15 with cpar := v }, .setCpar v)]) :
    s.writeCp15 crn crm op2 v = .ok ({ s with cp15 := new }.issue e) := by
  simp only [List.mem_cons, List.not_mem_nil, or_false, Prod.mk.injEq] at h
  rcases h with ⟨rfl, rfl, rfl, rfl, rfl⟩ | ⟨rfl, rfl, rfl, rfl, rfl⟩ | ⟨rfl, rfl, rfl, rfl, rfl⟩
    | ⟨rfl, rfl, rfl, rfl, rfl⟩ | ⟨rfl, rfl, rfl, rfl, rfl⟩ <;> rfl

/-- The Control Register (rules R32, R88, R409). -/
theorem writeCp15_control :
    s.writeCp15 1 0 0 v
      = if v.getLsbD 0 = false ∧ v.getLsbD 2 = true then .refused .illegalCacheEnable
        else if s.subWord = true ∧ v.getLsbD 7 ≠ s.cp15.control.getLsbD 7 then .refused .byteOrderChange
        else .ok ({ s with cp15 := { s.cp15 with control := controlStored v } }.issue
          (.setControl (controlStored v))) :=
  rfl

theorem controlStored_free {k : Nat} (h : k ∉ [3, 4, 5, 6]) : (controlStored v).getLsbD k = v.getLsbD k := by
  by_cases hk : k < 32
  · rw [controlStored_bit v hk, decide_eq_false, Bool.or_false]
    simp only [List.mem_cons, List.not_mem_nil, or_false, not_or] at h
    omega
  · rw [BitVec.getLsbD_of_ge _ _ (by omega), BitVec.getLsbD_of_ge _ _ (by omega)]

theorem controlStored_fixed {k : Nat} (h : k ∈ [3, 4, 5, 6]) : (controlStored v).getLsbD k = true := by
  simp only [List.mem_cons, List.not_mem_nil, or_false] at h
  rw [controlStored_bit v (by omega), decide_eq_true (by omega), Bool.or_true]

/-- A TLB function that needs no walk is issued, and nothing else. -/
theorem writeCp15_tlbIssues {mva : Word} {e : Cp15Effect} (hm : mva = remap s.cp15.pid v)
    (h : (crn, crm, op2, e) ∈ [((8 : BitVec 4), (7 : BitVec 4), (0 : BitVec 3), Cp15Effect.invalidateBoth),
      (8, 5, 0, .invalidate .instruction), (8, 5, 1, .invalidateEntry .instruction mva),
      (8, 6, 0, .invalidate .data), (8, 6, 1, .invalidateEntry .data mva), (10, 4, 1, .unlock .instruction),
      (10, 8, 1, .unlock .data)]) :
    s.writeCp15 crn crm op2 v = .ok (s.issue e) := by
  subst hm
  simp only [List.mem_cons, List.not_mem_nil, or_false, Prod.mk.injEq] at h
  rcases h with ⟨rfl, rfl, rfl, rfl⟩ | ⟨rfl, rfl, rfl, rfl⟩ | ⟨rfl, rfl, rfl, rfl⟩ | ⟨rfl, rfl, rfl, rfl⟩
    | ⟨rfl, rfl, rfl, rfl⟩ | ⟨rfl, rfl, rfl, rfl⟩ | ⟨rfl, rfl, rfl, rfl⟩ <;>
  exact writeCp15_tlb (by decide) rfl

/-! ## MRC (rule R241) -/

/-- A triple that names a register reads it. -/
theorem readCp15_listed
    (h : (crn, crm, op2, v) ∈ [((1 : BitVec 4), (0 : BitVec 4), (0 : BitVec 3), s.cp15.control),
      (1, 0, 1, s.cp15.auxControl), (2, 0, 0, s.cp15.ttb), (3, 0, 0, s.cp15.dacr), (5, 0, 0, s.fsr), (6, 0, 0, s.far),
      (9, 2, 0, s.dcacheLock), (13, 0, 0, s.cp15.pid), (15, 1, 0, s.cp15.cpar), (0, 0, 0, Config.mainId),
      (0, 0, 1, Config.cacheType)]) : s.readCp15 crn crm op2 = some v := by
  simp only [List.mem_cons, List.not_mem_nil, or_false, Prod.mk.injEq] at h
  rcases h with ⟨rfl, rfl, rfl, rfl⟩ | ⟨rfl, rfl, rfl, rfl⟩ | ⟨rfl, rfl, rfl, rfl⟩ | ⟨rfl, rfl, rfl, rfl⟩
    | ⟨rfl, rfl, rfl, rfl⟩ | ⟨rfl, rfl, rfl, rfl⟩ | ⟨rfl, rfl, rfl, rfl⟩ | ⟨rfl, rfl, rfl, rfl⟩
    | ⟨rfl, rfl, rfl, rfl⟩ | ⟨rfl, rfl, rfl, rfl⟩ | ⟨rfl, rfl, rfl, rfl⟩ <;> rfl

/-- A triple that names no register reads nothing. -/
theorem readCp15_unlisted (h : (crn, crm, op2) ∉ (0, 0, 0) :: (0, 0, 1) :: storageTriples) :
    s.readCp15 crn crm op2 = none := by
  simp only [storageTriples, List.mem_cons, List.not_mem_nil, Prod.mk.injEq, or_false, not_or] at h
  obtain ⟨h1, h2, h3, h4, h5, h6, h7, h8, h9, h10, h11⟩ := h
  unfold State.readCp15
  rw [if_neg h1, if_neg h2, if_neg h3, if_neg h4, if_neg h5, if_neg h6, if_neg h7, if_neg h8, if_neg h9, if_neg h10,
    if_neg h11]

theorem exec_mrc_register (hc : conditionPassed c s = true) (hp : s.privileged = true) (hr : rd ≠ Reg.pc)
    (h : s.readCp15 crn crm op2 = some v) : exec (.mrc c crn rd op2 crm) s = .next (s.setReg rd v).advance := by
  refine (conditional_true hc).trans ((privilegedAccess_true hp).trans ?_)
  rw [h]
  exact if_neg hr

theorem exec_mrc_flags (hc : conditionPassed c s = true) (hp : s.privileged = true)
    (h : s.readCp15 crn crm op2 = some v) :
    exec (.mrc c crn Reg.pc op2 crm) s = .next (s.setCpsr (mergeMask 0xF0000000 s.cpsr v)).advance := by
  refine (conditional_true hc).trans ((privilegedAccess_true hp).trans ?_)
  rw [h]
  exact if_pos rfl

theorem exec_mrc_unlisted (hc : conditionPassed c s = true) (hp : s.privileged = true)
    (h : s.readCp15 crn crm op2 = none) : exec (.mrc c crn rd op2 crm) s = .refused .cp15Unlisted := by
  refine (conditional_true hc).trans ((privilegedAccess_true hp).trans ?_)
  rw [h]

end

/-! ## The statements -/

/-- Settles O47, register by register. -/
theorem mrcReadsRegisters : Obligations.MrcReadsRegisters := by
  intro c crn crm op2 rd s hc hp hr
  refine ⟨fun v h => ?_, fun v h => ?_, fun h => ?_⟩
  · refine ⟨_, exec_mrc_register hc hp hr (readCp15_listed h), ?_, by simp, .setReg s hr v, .setReg s hr v⟩
    rw [State.reg_advance _ hr, State.reg_setReg_same s hr]
  · have flag : ∀ k, 28 ≤ k → k < 32 → (mergeMask 0xF0000000 s.cpsr v).getLsbD k = v.getLsbD k := by
      intro k h28 h32
      have top : ∀ j : Fin 32, 28 ≤ j.val → (0xF0000000 : Word).getLsbD j = true := by decide
      rw [mergeMask_bit]
      exact if_pos (top ⟨k, h32⟩ h28)
    exact ⟨_, exec_mrc_flags hc hp h, flag 31 (by decide) (by decide), flag 30 (by decide) (by decide),
      flag 29 (by decide) (by decide), flag 28 (by decide) (by decide),
      fun _ hk => mergeMask_low (n := 28) (by decide) hk, ⟨rfl, rfl⟩, ⟨.none rfl, .of (by simp), .of (by simp)⟩,
      rfl⟩
  · exact exec_mrc_unlisted hc hp (readCp15_unlisted h)

/-- Settles O48, register by register. -/
theorem mcrWritesRegisters : Obligations.McrWritesRegisters := by
  intro c rd s v hc hp hr hv
  subst hv
  refine ⟨fun crn crm op2 new e h => ?_, fun hl hb => ?_, fun h0 h2 => ?_, fun hl hs hb => ?_, ?_, ?_, ?_,
    fun crn crm op2 h => ?_⟩
  · obtain ⟨t, hx, rfl, ha, hf⟩ := exec_mcr_ok hc hp hr (writeCp15_late h)
    exact ⟨_, hx, rfl, rfl, ⟨rfl, rfl⟩, rfl, ha, hf⟩
  · have hb' : ¬ (s.subWord = true ∧ (s.reg rd).getLsbD 7 ≠ s.cp15.control.getLsbD 7) := fun ⟨hs, hn⟩ => hn (hb hs)
    obtain ⟨t, hx, rfl, ha, hf⟩ := exec_mcr_ok hc hp hr (writeCp15_control.trans ((if_neg hl).trans (if_neg hb')))
    exact ⟨_, _, hx, rfl, fun _ => controlStored_free, fun _ => controlStored_fixed, rfl, ⟨rfl, rfl⟩, rfl, ha, hf⟩
  · exact exec_mcr_refused hc hp hr (writeCp15_control.trans (if_pos ⟨h0, h2⟩))
  · exact exec_mcr_refused hc hp hr (writeCp15_control.trans ((if_neg hl).trans (if_pos ⟨hs, hb⟩)))
  · obtain ⟨t, hx, rfl, ha, hf⟩ := exec_mcr_ok (crn := 5) (crm := 0) (op2 := 0) hc hp hr rfl
    exact ⟨_, hx, rfl, rfl, rfl, rfl, rfl, ha, hf⟩
  · obtain ⟨t, hx, rfl, ha, hf⟩ := exec_mcr_ok (crn := 6) (crm := 0) (op2 := 0) hc hp hr rfl
    exact ⟨_, hx, rfl, rfl, rfl, rfl, rfl, ha, hf⟩
  · obtain ⟨t, hx, rfl, ha, hf⟩ := exec_mcr_ok (crn := 9) (crm := 2) (op2 := 0) hc hp hr rfl
    exact ⟨_, hx, rfl, ⟨rfl, rfl⟩, rfl, rfl, ha, hf⟩
  · exact exec_mcr_refused hc hp hr (writeCp15_unlisted
      (fun x => h ((by decide : storageTriples ⊆ _) x)) (fun x => h ((by decide : tlbTriples ⊆ _) x))
      (fun x => h ((by decide : cacheTriples ⊆ _) x)))

/-- Settles O49: a function that needs no walk is issued, and an MCR does nothing else. -/
theorem mcrTlbFunctionsPend : Obligations.McrTlbFunctionsPend := by
  intro c crn crm op2 rd s mva e hc hp hr hm h
  obtain ⟨t, hx, rfl, ha, hf⟩ := exec_mcr_ok hc hp hr (writeCp15_tlbIssues hm h)
  exact ⟨_, hx, rfl, rfl, ⟨rfl, rfl⟩, rfl, ha, hf⟩

end Sys2Proof.Machine
end

section
/-!
Translation in the arithmetic of addresses: the process ID remap, the walk, the entries its descriptors give, the checks
of domain and permission, the look-up, and the attributes (rules R37, R43, R86, R90 to R98, R102).
-/

namespace Sys2Proof.Machine

/-! ## Masks that keep the bits from a position on -/

section
variable {m w : Word} {n : Nat}

/-- The bits from a position on, as a multiple. -/
theorem toNat_and_high (hm : ∀ k : Fin 32, m.getLsbD k = decide (n ≤ k.val)) :
    (w &&& m).toNat = w.toNat / 2 ^ n * 2 ^ n := by
  apply Nat.eq_of_testBit_eq
  intro i
  rw [← Nat.shiftLeft_eq, Nat.testBit_shiftLeft, Nat.testBit_div_two_pow]
  by_cases hi : i < 32
  · have hb := hm ⟨i, hi⟩
    simp only [BitVec.getLsbD] at hb
    rw [BitVec.toNat_and, Nat.testBit_and, hb]
    by_cases h : n ≤ i
    · simp [h, Nat.sub_add_cancel h]
    · simp [h]
  · have hw : w.toNat.testBit i = false := BitVec.getLsbD_of_ge w i (by omega)
    rw [BitVec.toNat_and, Nat.testBit_and, hw]
    by_cases h : n ≤ i
    · simp [h, Nat.sub_add_cancel h, hw]
    · simp [h]

/-- The bits below a position, as a remainder. -/
theorem toNat_and_low (hm : ∀ k : Fin 32, m.getLsbD k = decide (n ≤ k.val)) :
    (w &&& ~~~m).toNat = w.toNat % 2 ^ n := by
  apply Nat.eq_of_testBit_eq
  intro i
  rw [Nat.testBit_mod_two_pow]
  by_cases hi : i < 32
  · have hb : (~~~m).toNat.testBit i = decide (i < n) := by
      have e : (~~~m).getLsbD i = !m.getLsbD i := by simp [hi]
      rw [hm ⟨i, hi⟩] at e
      rw [show (~~~m).toNat.testBit i = (~~~m).getLsbD i from rfl, e, ← decide_not]
      simp
    rw [BitVec.toNat_and, Nat.testBit_and, hb, Bool.and_comm]
  · have hw : w.toNat.testBit i = false := BitVec.getLsbD_of_ge w i (by omega)
    rw [BitVec.toNat_and, Nat.testBit_and, hw]
    simp

/-- High bits of one word and low bits of another. -/
theorem toNat_or_parts {a b : Word} {x : Nat} (ha : a.toNat = x * 2 ^ n) (hb : b.toNat < 2 ^ n) :
    (a ||| b).toNat = x * 2 ^ n + b.toNat := by
  rw [BitVec.toNat_or, ha, ← Nat.shiftLeft_eq, Nat.shiftLeft_add_eq_or_of_lt hb]

end

/-! ## The process ID remap (rule R43) -/

theorem pid_mask (k : Fin 32) : (0xFE000000 : Word).getLsbD k = decide (25 ≤ k.val) := by
  revert k; decide

theorem high_seven_zero (va : Word) : va.extractLsb' 25 7 = 0 ↔ va.toNat < 33554432 := by
  rw [← BitVec.toNat_inj, BitVec.extractLsb'_toNat, Nat.shiftRight_eq_div_pow]
  have := va.isLt
  simp only [BitVec.toNat_zero, BitVec.ofNat_eq_ofNat]
  omega

theorem remap_eq (pid va : Word) :
    remap pid va = if va.toNat < 33554432 then va ||| (pid &&& 0xFE000000) else va := by
  unfold remap
  simp only [high_seven_zero]

/-- A low address takes its bits 31:25 from the process ID. -/
theorem remap_toNat (pid : Word) {va : Word} (h : va.toNat < 33554432) :
    (remap pid va).toNat = va.toNat + pid.toNat / 33554432 * 33554432 := by
  have hp : (pid &&& 0xFE000000).toNat = pid.toNat / 33554432 * 2 ^ 25 := toNat_and_high (n := 25) pid_mask
  rw [remap_eq, if_pos h, BitVec.or_comm, toNat_or_parts hp h]
  omega

theorem remap_high (pid : Word) {va : Word} (h : 33554432 ≤ va.toNat) : remap pid va = va := by
  rw [remap_eq, if_neg (by omega)]

/-! ## The regions of entries (rules R90 to R93) -/

/-- The number of address bits within a region. -/
def PageSize.bits : PageSize → Nat
  | .section1M => 20
  | .large64K => 16
  | .small4K => 12
  | .tiny1K => 10

theorem PageSize.mask_bit (z : PageSize) (k : Fin 32) : z.mask.getLsbD k = decide (z.bits ≤ k.val) := by
  revert k
  cases z <;> decide

/-- An entry whose tag and base are an address and a descriptor rounded down to its region translates that region, as
far into the descriptor's. -/
theorem mapsRegion_of {e : TlbEntry} {mva d : Word} {ap : Word → BitVec 2} (hv : e.valid = true)
    (ht : e.tag = mva &&& e.size.mask) (hb : e.base = d &&& e.size.mask) (ha : ∀ m, e.ap m = ap m) :
    MapsRegion e mva e.size (2 ^ e.size.bits) d ap e.domain e.attributes where
  size := rfl
  hits m := by
    have pos : 0 < 2 ^ e.size.bits := Nat.two_pow_pos _
    unfold TlbEntry.hits
    rw [hv, ht, Bool.true_and, beq_iff_eq, ← BitVec.toNat_inj, toNat_and_high e.size.mask_bit,
      toNat_and_high e.size.mask_bit, Nat.mul_left_inj pos.ne']
  physical m := by
    have hlow : (m &&& ~~~e.size.mask).toNat = m.toNat % 2 ^ e.size.bits := toNat_and_low e.size.mask_bit
    unfold TlbEntry.physical
    rw [hb, BitVec.and_assoc, BitVec.and_self, toNat_or_parts (toNat_and_high e.size.mask_bit), hlow]
    rw [hlow]
    exact Nat.mod_lt _ (Nat.two_pow_pos _)
  ap := ha
  domain := rfl
  attributes := rfl

/-! ## Access permission fields (rule R92) -/

theorem fourAps_field (ap : BitVec 2) (k : Fin 4) : (fourAps ap).extractLsb' (2 * k) 2 = ap := by
  revert ap k; decide

theorem subpage_lt (z : PageSize) (m : Word) : subpage z m < 4 := by
  unfold subpage
  cases z with
  | section1M => exact Nat.zero_lt_succ 3
  | large64K => exact BitVec.isLt _
  | small4K => exact BitVec.isLt _
  | tiny1K => exact Nat.zero_lt_succ 3

/-- A mapping with one access permission field gives it everywhere. -/
theorem ap_of_fourAps {e : TlbEntry} {ap : BitVec 2} (h : e.aps = fourAps ap) (m : Word) : e.ap m = ap := by
  unfold TlbEntry.ap
  rw [h]
  exact fourAps_field ap ⟨_, subpage_lt e.size m⟩

/-- A mapping with four access permission fields gives each to one subpage. -/
theorem ap_of_fields {e : TlbEntry} {d m : Word} {k : Nat} (h : e.aps = d.extractLsb' 4 8) (hk : subpage e.size m = k) :
    e.ap m = d.extractLsb' (4 + 2 * k) 2 := by
  have hlt : k < 4 := hk ▸ subpage_lt e.size m
  unfold TlbEntry.ap
  rw [h, hk]
  apply BitVec.eq_of_getLsbD_eq
  intro i hi
  simp only [BitVec.getLsbD_extractLsb', hi, decide_true, Bool.true_and]
  rw [decide_eq_true (by omega), Bool.true_and]
  congr 1
  omega

theorem subpage_large (m : Word) : subpage .large64K m = m.toNat / 16384 % 4 := by
  simp [subpage, BitVec.extractLsb'_toNat, Nat.shiftRight_eq_div_pow]

theorem subpage_small (m : Word) : subpage .small4K m = m.toNat / 1024 % 4 := by
  simp [subpage, BitVec.extractLsb'_toNat, Nat.shiftRight_eq_div_pow]

/-! ## The walk (rules R90 to R97) -/

theorem low_two_one (r : Word) : r.extractLsb' 0 2 = 0b01 ↔ r.toNat % 4 = 1 := by
  rw [← BitVec.toNat_inj]; simp

theorem firstLevelAddress_toNat (ttb mva : Word) :
    (firstLevelAddress ttb mva).toNat = ttb.toNat / 16384 * 16384 + mva.toNat / 1048576 * 4 := by
  have := ttb.isLt
  have := mva.isLt
  unfold firstLevelAddress
  rw [append_toNat, append_toNat]
  simp only [BitVec.extractLsb'_toNat, Nat.shiftRight_eq_div_pow, BitVec.toNat_ofNat]
  omega

theorem coarseAddress_toNat (d1 mva : Word) :
    (coarseAddress d1 mva).toNat = d1.toNat / 1024 * 1024 + mva.toNat / 4096 % 256 * 4 := by
  have := d1.isLt
  unfold coarseAddress
  rw [append_toNat, append_toNat]
  simp only [BitVec.extractLsb'_toNat, Nat.shiftRight_eq_div_pow, BitVec.toNat_ofNat]
  omega

theorem fineAddress_toNat (d1 mva : Word) :
    (fineAddress d1 mva).toNat = d1.toNat / 4096 * 4096 + mva.toNat / 1024 % 1024 * 4 := by
  have := d1.isLt
  unfold fineAddress
  rw [append_toNat, append_toNat]
  simp only [BitVec.extractLsb'_toNat, Nat.shiftRight_eq_div_pow, BitVec.toNat_ofNat]
  omega

section
variable {mem : List Host.Cell} {aux ttb mva d1 d2 : Word}

/-- The walk past the first-level read, in the arithmetic of its descriptors. -/
theorem walk_eq {external : Option WalkLevel} (he : external ≠ some .first)
    (hd : d1 = Memory.readWord mem (ttb.toNat / 16384 * 16384 + mva.toNat / 1048576 * 4)) :
    walk mem external aux ttb mva
      = if d1.toNat % 4 = 0 then .error .translationSection
        else if d1.toNat % 4 = 2 then .ok (sectionEntry d1 mva)
        else if external = some .second then .error (.walkSecond (d1.extractLsb' 5 4))
        else if d1.toNat % 4 = 1 then
          walkSecond true d1 (Memory.readWord mem (d1.toNat / 1024 * 1024 + mva.toNat / 4096 % 256 * 4)) mva
        else walkSecond false d1 (Memory.readWord mem (d1.toNat / 4096 * 4096 + mva.toNat / 1024 % 1024 * 4)) mva := by
  unfold walk
  rw [if_neg he]
  simp only [BusAccess.word, tableRead, firstLevelAddress_toNat, coarseAddress_toNat, fineAddress_toNat, ← hd,
    low_two_zero, low_two_two, low_two_one]

/-- The second-level step, in the arithmetic of its descriptor. -/
theorem walkSecond_eq (coarse : Bool) :
    walkSecond coarse d1 d2 mva
      = if d2.toNat % 4 = 0 then .error (.translationPage (d1.extractLsb' 5 4))
        else if d2.toNat % 4 = 1 then
          .ok (pageEntry d1 d2 mva .large64K (d2.extractLsb' 4 8) (d2.getLsbD 12))
        else if d2.toNat % 4 = 2 then .ok (pageEntry d1 d2 mva .small4K (d2.extractLsb' 4 8) false)
        else if coarse then .ok (pageEntry d1 d2 mva .small4K (fourAps (d2.extractLsb' 4 2)) (d2.getLsbD 6))
        else .ok (pageEntry d1 d2 mva .tiny1K (fourAps (d2.extractLsb' 4 2)) (d2.getLsbD 6)) := by
  unfold walkSecond
  simp only [low_two_zero, low_two_two, low_two_one]

/-- A table descriptor sends the walk to the second level. -/
theorem walk_table {coarse : Bool}
    (hd : d1 = Memory.readWord mem (ttb.toNat / 16384 * 16384 + mva.toNat / 1048576 * 4))
    (h2 : (d1.toNat % 4 = 1 ∧ coarse = true
        ∧ d2 = Memory.readWord mem (d1.toNat / 1024 * 1024 + mva.toNat / 4096 % 256 * 4))
      ∨ (d1.toNat % 4 = 3 ∧ coarse = false
        ∧ d2 = Memory.readWord mem (d1.toNat / 4096 * 4096 + mva.toNat / 1024 % 1024 * 4))) :
    walk mem none aux ttb mva = walkSecond coarse d1 d2 mva := by
  rw [walk_eq (by simp) hd]
  rcases h2 with ⟨h, hc, he⟩ | ⟨h, hc, he⟩ <;> simp [h, hc, he]

theorem sectionEntry_mapsRegion :
    MapsRegion (sectionEntry d1 mva) mva .section1M 1048576 d1 (fun _ => d1.extractLsb' 10 2) (d1.extractLsb' 5 4)
      ⟨d1.getLsbD 12, d1.getLsbD 3, d1.getLsbD 2, d1.getLsbD 9⟩ :=
  mapsRegion_of (e := sectionEntry d1 mva) rfl rfl rfl fun m => ap_of_fourAps rfl m

theorem pageEntry_mapsRegion {z : PageSize} {aps : BitVec 8} {x : Bool} {ap : Word → BitVec 2}
    (ha : ∀ m, (pageEntry d1 d2 mva z aps x).ap m = ap m) :
    MapsRegion (pageEntry d1 d2 mva z aps x) mva z (2 ^ z.bits) d2 ap (d1.extractLsb' 5 4)
      ⟨x, d2.getLsbD 3, d2.getLsbD 2, d1.getLsbD 9⟩ :=
  mapsRegion_of (e := pageEntry d1 d2 mva z aps x) rfl rfl rfl ha

end

/-! ## The checks of domain and permission (rule R98) -/

theorem domainAccess_toNat (dacr : Word) (d : BitVec 4) :
    (dacr.extractLsb' (2 * d.toNat) 2).toNat = dacr.toNat / 4 ^ d.toNat % 4 := by
  rw [BitVec.extractLsb'_toNat, Nat.shiftRight_eq_div_pow, Nat.pow_mul]

section
variable {dacr control : Word} {e : TlbEntry} {mva : Word} {privileged write : Bool}

/-- The fault of an access outside its domain: the section's or the page's (rule R347). -/
def outsideFault (e : TlbEntry) : MmuFault :=
  if e.size = .section1M then .domainSection e.domain else .domainPage e.domain

/-- The fault of an access that its permission denies: the section's or the page's (rule R347). -/
def deniedFault (e : TlbEntry) : MmuFault :=
  if e.size = .section1M then .permissionSection e.domain else .permissionPage e.domain

/-- The fault names say which region the entry maps. -/
theorem checkFaults {outside denied : MmuFault}
    (h : (e.size = .section1M ∧ outside = .domainSection e.domain ∧ denied = .permissionSection e.domain)
      ∨ (e.size ≠ .section1M ∧ outside = .domainPage e.domain ∧ denied = .permissionPage e.domain)) :
    outside = outsideFault e ∧ denied = deniedFault e := by
  unfold outsideFault deniedFault
  rcases h with ⟨hz, rfl, rfl⟩ | ⟨hz, rfl, rfl⟩ <;> simp [hz]

theorem domainAccess_eq {k : Nat} (h : dacr.toNat / 4 ^ e.domain.toNat % 4 = k) :
    dacr.extractLsb' (2 * e.domain.toNat) 2 = BitVec.ofNat 2 k := by
  have hk : k < 4 := h ▸ Nat.mod_lt _ (by decide)
  rw [← BitVec.toNat_inj, domainAccess_toNat, h, BitVec.toNat_ofNat]
  omega

theorem checkAccess_manager (h : dacr.toNat / 4 ^ e.domain.toNat % 4 = 3) :
    checkAccess dacr control e mva privileged write = .pass := by
  unfold checkAccess
  rw [domainAccess_eq h]
  rfl

theorem checkAccess_reserved (h : dacr.toNat / 4 ^ e.domain.toNat % 4 = 2) :
    checkAccess dacr control e mva privileged write = .refused .reservedDomain := by
  unfold checkAccess
  rw [domainAccess_eq h]
  rfl

theorem checkAccess_outside (h : dacr.toNat / 4 ^ e.domain.toNat % 4 = 0) :
    checkAccess dacr control e mva privileged write = .fault (outsideFault e) := by
  unfold checkAccess
  rw [domainAccess_eq h]
  rfl

/-- A client's access that the permission field decides. -/
theorem checkAccess_client (h : dacr.toNat / 4 ^ e.domain.toNat % 4 = 1) {b : Bool}
    (ha : apAllows (e.ap mva) (control.getLsbD 8) (control.getLsbD 9) privileged write = some b) :
    checkAccess dacr control e mva privileged write = if b then .pass else .fault (deniedFault e) := by
  unfold checkAccess
  rw [domainAccess_eq h, ha]
  cases b <;> rfl

theorem checkAccess_unpredictable (h : dacr.toNat / 4 ^ e.domain.toNat % 4 = 1)
    (ha : apAllows (e.ap mva) (control.getLsbD 8) (control.getLsbD 9) privileged write = none) :
    checkAccess dacr control e mva privileged write = .refused .unpredictableAp := by
  unfold checkAccess
  rw [domainAccess_eq h, ha]
  rfl

theorem checkAccess_allowed (h : dacr.toNat / 4 ^ e.domain.toNat % 4 = 1)
    (ha : apAllows (e.ap mva) (control.getLsbD 8) (control.getLsbD 9) privileged write = some true) :
    checkAccess dacr control e mva privileged write = .pass := checkAccess_client h ha

theorem checkAccess_denied (h : dacr.toNat / 4 ^ e.domain.toNat % 4 = 1)
    (ha : apAllows (e.ap mva) (control.getLsbD 8) (control.getLsbD 9) privileged write = some false) :
    checkAccess dacr control e mva privileged write = .fault (deniedFault e) := checkAccess_client h ha

end

/-- The four descriptors of the second level, given the first: the fault, and the entries of the three page sizes. -/
theorem walkSecond_rows {mem : List Host.Cell} {aux ttb mva d1 d2 : Word}
    (hd : d1 = Memory.readWord mem (ttb.toNat / 16384 * 16384 + mva.toNat / 1048576 * 4))
    (h2 : (d1.toNat % 4 = 1 ∧ d2 = Memory.readWord mem (d1.toNat / 1024 * 1024 + mva.toNat / 4096 % 256 * 4))
      ∨ (d1.toNat % 4 = 3 ∧ d2 = Memory.readWord mem (d1.toNat / 4096 * 4096 + mva.toNat / 1024 % 1024 * 4))) :
    (d2.toNat % 4 = 0 → walk mem none aux ttb mva = .error (.translationPage (d1.extractLsb' 5 4)))
      ∧ (d2.toNat % 4 = 1 → ∃ e, walk mem none aux ttb mva = .ok e
        ∧ MapsRegion e mva .large64K 65536 d2 (fun m => d2.extractLsb' (4 + 2 * (m.toNat / 16384 % 4)) 2)
          (d1.extractLsb' 5 4) ⟨d2.getLsbD 12, d2.getLsbD 3, d2.getLsbD 2, d1.getLsbD 9⟩)
      ∧ (d2.toNat % 4 = 2 → ∃ e, walk mem none aux ttb mva = .ok e
        ∧ MapsRegion e mva .small4K 4096 d2 (fun m => d2.extractLsb' (4 + 2 * (m.toNat / 1024 % 4)) 2)
          (d1.extractLsb' 5 4) ⟨false, d2.getLsbD 3, d2.getLsbD 2, d1.getLsbD 9⟩)
      ∧ (d2.toNat % 4 = 3 → ∃ e, walk mem none aux ttb mva = .ok e
        ∧ ∀ (size : PageSize) (n : Nat), (d1.toNat % 4 = 1 ∧ size = .small4K ∧ n = 4096)
            ∨ (d1.toNat % 4 = 3 ∧ size = .tiny1K ∧ n = 1024) →
          MapsRegion e mva size n d2 (fun _ => d2.extractLsb' 4 2) (d1.extractLsb' 5 4)
            ⟨d2.getLsbD 6, d2.getLsbD 3, d2.getLsbD 2, d1.getLsbD 9⟩) := by
  obtain ⟨coarse, hw, hco⟩ : ∃ coarse, walk mem none aux ttb mva = walkSecond coarse d1 d2 mva
      ∧ (coarse = true ↔ d1.toNat % 4 = 1) := by
    rcases h2 with ⟨h, he⟩ | ⟨h, he⟩
    · exact ⟨true, walk_table hd (.inl ⟨h, rfl, he⟩), by simp [h]⟩
    · exact ⟨false, walk_table hd (.inr ⟨h, rfl, he⟩), by simp [h]⟩
  rw [hw, walkSecond_eq]
  refine ⟨fun h => by simp [h], fun h => ?_, fun h => ?_, fun h => ?_⟩
  · rw [if_neg (by omega), if_pos h]
    exact ⟨_, rfl, pageEntry_mapsRegion fun m => ap_of_fields rfl (subpage_large m)⟩
  · rw [if_neg (by omega), if_neg (by omega), if_pos h]
    exact ⟨_, rfl, pageEntry_mapsRegion fun m => ap_of_fields rfl (subpage_small m)⟩
  · rw [if_neg (by omega), if_neg (by omega), if_neg (by omega)]
    cases coarse with
    | true =>
      refine ⟨_, rfl, ?_⟩
      rintro z n (⟨_, rfl, rfl⟩ | ⟨h3, _⟩)
      · exact pageEntry_mapsRegion fun m => ap_of_fourAps rfl m
      · have := hco.1 rfl; omega
    | false =>
      refine ⟨_, rfl, ?_⟩
      rintro z n (⟨h1, _⟩ | ⟨_, rfl, rfl⟩)
      · cases hco.2 h1
      · exact pageEntry_mapsRegion fun m => ap_of_fourAps rfl m

/-- Settles O56: the remap, the walk and the checks, each in the arithmetic of its words. -/
theorem translationTablesGiveAddresses : Obligations.TranslationTablesGiveAddresses := by
  refine ⟨remap_eq, fun mem aux ttb mva d1 hd => ?_,
    fun dacr control e mva privileged write outside denied hf => ?_⟩
  · have hnone : walk mem none aux ttb mva = _ := walk_eq (by simp) hd
    have hsecond : walk mem (some .second) aux ttb mva = _ := walk_eq (by simp) hd
    refine ⟨rfl, fun h => ?_, fun h => ?_, fun h => ?_, fun h => ?_, fun d2 h2 => walkSecond_rows hd h2⟩
    · rw [hsecond, if_neg (by omega), if_neg (by omega), if_pos rfl]
    · rw [hsecond, hnone]
      rcases (by omega : d1.toNat % 4 = 0 ∨ d1.toNat % 4 = 2) with h | h <;> simp [h]
    · rw [hnone, if_pos h]
    · exact ⟨_, by rw [hnone, if_neg (by omega), if_pos h], sectionEntry_mapsRegion⟩
  · obtain ⟨rfl, rfl⟩ := checkFaults hf
    refine ⟨checkAccess_manager, checkAccess_reserved, checkAccess_outside, fun h1 => ?_⟩
    refine ⟨fun ha => ?_, fun ha hp => ?_, fun ha hp => ?_, fun ha => ?_, fun ha =>
      ⟨fun hs hr => ?_, fun hp => ?_, fun hp => ?_⟩⟩
    · exact checkAccess_allowed h1 (by rw [ha]; rfl)
    · exact checkAccess_allowed h1 (by rw [ha]; rcases hp with rfl | rfl <;> simp [apAllows])
    · exact checkAccess_allowed h1 (by rw [ha, hp]; rfl)
    · exact checkAccess_denied h1 (by rcases ha with ⟨ha, rfl, rfl⟩ | ⟨ha, rfl⟩ <;> rw [ha] <;> rfl)
    · exact checkAccess_unpredictable h1 (by rw [ha, hs, hr]; rfl)
    · exact checkAccess_allowed h1 (by
        rcases hp with ⟨hs, hr, rfl, rfl⟩ | ⟨hs, hr, rfl⟩ <;> rw [ha, hs, hr] <;> rfl)
    · exact checkAccess_denied h1 (by
        rcases hp with ⟨hs, hr⟩ | ⟨hs, hr, rfl | rfl⟩ | ⟨hs, hr, rfl⟩ <;> rw [ha, hs, hr] <;> simp [apAllows])

/-! ## Translating an access (rules R43, R86, R96, R98) -/

section
variable {s u : State} {side : Side} {write : Bool} {va : Word}

/-- With the MMU off the remapped address is the physical one. -/
theorem translate_off (h : s.mmuOn = false) :
    translate side write va s = .ok s (remap s.eff.pid va) (attributesOff side) := by
  unfold translate
  rw [if_neg (by simp [h])]

/-- With the MMU on, an entry found or walked is checked. -/
theorem translate_on (h : s.mmuOn = true) {e : TlbEntry}
    (he : ((s.tlb side).find (remap s.eff.pid va) = some e ∧ u = s)
      ∨ ((s.tlb side).find (remap s.eff.pid va) = none
        ∧ walk s.mem (s.walkAbort side) s.eff.auxControl s.eff.ttb (remap s.eff.pid va) = .ok e
        ∧ u = s.setTlb side ((s.tlb side).fill e))) :
    translate side write va s = checked s u e (remap s.eff.pid va) write := by
  unfold translate
  rw [if_pos h]
  rcases he with ⟨hf, rfl⟩ | ⟨hf, hw, rfl⟩
  · simp only [hf]
  · simp only [hf, hw]

/-- With the MMU on, a fault of the walk is the access's. -/
theorem translate_walkFault (h : s.mmuOn = true) {f : MmuFault} (hf : (s.tlb side).find (remap s.eff.pid va) = none)
    (hw : walk s.mem (s.walkAbort side) s.eff.auxControl s.eff.ttb (remap s.eff.pid va) = .error f) :
    translate side write va s = .fault f := by
  unfold translate
  rw [if_pos h]
  simp only [hf, hw]

/-- A translation leaves the registers in effect alone. -/
theorem translate_eff {pa : Word} {a : Attributes} (h : translate side write va s = .ok u pa a) : u.eff = s.eff := by
  rcases translate_state h with rfl | ⟨e, rfl⟩
  · rfl
  · exact State.setTlb_eff s side _

end

/-! ## The look-up -/

/-- No entry is found exactly where none translates the address. -/
theorem Tlb.find_eq_none (l : Tlb) (mva : Word) :
    l.find mva = none ↔ ∀ k : Fin 32, l.entries[k].hits mva = false := by
  unfold Tlb.find
  rw [List.find?_eq_none]
  refine ⟨fun h k => Bool.eq_false_iff.2 (h _ ?_), fun h e he => ?_⟩
  · exact Vector.mem_toList_iff.2 (Vector.getElem_mem k.isLt)
  · obtain ⟨k, hk, rfl⟩ := Vector.mem_iff_getElem.1 (Vector.mem_toList_iff.1 he)
    exact Bool.eq_false_iff.1 (h ⟨k, hk⟩)

/-- The entry found is the lowest-numbered that translates the address (log 11). -/
theorem Tlb.find_eq_some {l : Tlb} {mva : Word} {e : TlbEntry} (h : l.find mva = some e) :
    ∃ k : Fin 32, l.entries[k] = e ∧ e.hits mva = true
      ∧ ∀ j : Fin 32, j < k → l.entries[j].hits mva = false := by
  unfold Tlb.find at h
  obtain ⟨he, k, hk, hke, hj⟩ := List.find?_eq_some_iff_getElem.1 h
  have hk32 : k < 32 := by simpa using hk
  exact ⟨⟨k, hk32⟩, by simpa using hke, he, fun j hjk => by simpa using hj j hjk⟩

/-! ## Tables 3-15 and 3-16 (rules R37, R102) -/

theorem mdField_eq {aux : Word} {k : Nat} (h : aux.toNat / 16 % 4 = k) :
    aux.extractLsb' 4 2 = BitVec.ofNat 2 k := by
  rw [← BitVec.toNat_inj, BitVec.extractLsb'_toNat, Nat.shiftRight_eq_div_pow, BitVec.toNat_ofNat]
  omega

theorem miniPolicy_eq {aux : Word} {k : Nat} (h : aux.toNat / 16 % 4 = k) :
    miniPolicy aux = if k = 0 then some (.cached true .writeBack .readAllocate)
      else if k = 1 then some (.cached true .writeBack .readWriteAllocate)
      else if k = 2 then some (.cached true .writeThrough .readAllocate) else none := by
  unfold miniPolicy
  rw [mdField_eq h]
  rcases (by omega : k = 0 ∨ k = 1 ∨ k = 2 ∨ k = 3) with rfl | rfl | rfl | rfl <;> rfl

theorem miniPolicy_cached {aux : Word} {p : Policy} (h : miniPolicy aux = some p) : p.isCached = true := by
  unfold miniPolicy at h
  split at h
  · cases h; rfl
  · split at h
    · cases h; rfl
    · split at h
      · cases h; rfl
      · cases h

/-- A region is cached exactly where its C bit is set. -/
theorem dataPolicy_isCached {a : Attributes} {aux : Word} {p : Policy} (h : dataPolicy a aux = some p) :
    p.isCached = a.c := by
  obtain ⟨x, c, b, q⟩ := a
  cases x <;> cases c <;> cases b
  case true.false.false => cases h
  case true.true.false => exact miniPolicy_cached h
  all_goals (cases h; rfl)

theorem Policy.isWriteBack_iff (p : Policy) :
    p.isWriteBack = true ↔ ∃ mini alloc, p = .cached mini .writeBack alloc := by
  refine ⟨fun h => ?_, ?_⟩
  · unfold Policy.isWriteBack at h
    split at h
    · exact ⟨_, _, rfl⟩
    · cases h
  · rintro ⟨_, _, rfl⟩
    rfl

/-- A translated data access, classified. -/
theorem dataTranslate_policy {s t : State} {write : Bool} {far va pa : Word} {a : Attributes}
    (h : translate .data write va s = .ok t pa a) :
    (∀ p, dataPolicy a s.eff.auxControl = some p → dataTranslate write far va s = .ok ⟨t, pa, a.p, p⟩)
      ∧ (dataPolicy a s.eff.auxControl = none →
        dataTranslate write far va s = .refused .unpredictableAttributes) := by
  rw [← translate_eff h]
  unfold dataTranslate
  rw [h]
  exact ⟨fun p hp => by simp only [hp], fun hp => by simp only [hp]⟩

/-- Settles O55: the translation, the look-up, the classification, and the two tables. -/
theorem accessesAreTranslatedAndClassified : Obligations.AccessesAreTranslatedAndClassified := by
  refine ⟨fun s side write far va hm => ?_, fun s side write va mva hm hv => ?_,
    fun l mva => ⟨l.find_eq_none mva, fun e h => Tlb.find_eq_some h⟩, fun s write far va => ?_, fun p aux => ?_,
    fun a aux p h => ⟨dataPolicy_isCached h, p.isWriteBack_iff⟩⟩
  · exact ⟨_, translate_off hm, dataTranslate_off hm, remap_toNat s.eff.pid, remap_high s.eff.pid⟩
  · subst hv
    refine ⟨fun f hf hw => translate_walkFault hm hf hw, fun e u he => ?_⟩
    rw [translate_on hm he]
    unfold checked
    exact ⟨fun h => by simp only [h], fun f h => by simp only [h], fun r h => by simp only [h]⟩
  · refine ⟨fun f h => ?_, fun r h => ?_, fun t pa a h => dataTranslate_policy h⟩
    · unfold dataTranslate; rw [h]
    · unfold dataTranslate; rw [h]
  · exact ⟨rfl, rfl, rfl, rfl, rfl, rfl, miniPolicy_eq, miniPolicy_eq, miniPolicy_eq, miniPolicy_eq, rfl⟩

end Sys2Proof.Machine
end

section
/-!
Imprecise data aborts: what an access comes to owe, what a load, store or swap that completes with one leaves, and how
the aborts owed age (rules R58, R296, R345, R352 to R354, R402).
-/

namespace Sys2Proof.Machine

/-! ## What an access comes to owe (rules R58, R352, R353, R360) -/

section
variable {s : State} {p : Policy} {load : Bool}

theorem abortOwed_external (h : s.now.dataError = true) : s.abortOwed p load = [⟨.external, abortDeadline p⟩] := by
  unfold State.abortOwed
  rw [if_pos h]

theorem parityStrikes_eq_true (h : s.now.dataParity = true) (hp : p.isCached = true) (hc : s.dataCacheOn = true) :
    s.parityStrikes p = true := by
  unfold State.parityStrikes
  rw [h, hp, hc]
  rfl

theorem abortOwed_parity (h : s.now.dataError = false) (hs : s.parityStrikes p = true) :
    s.abortOwed p true = [⟨.parity, none⟩] := by
  unfold State.abortOwed
  rw [if_neg (by simp [h]), hs]
  rfl

theorem abortOwed_none (h : s.now.dataError = false) (hs : (load && s.parityStrikes p) = false) :
    s.abortOwed p load = [] := by
  unfold State.abortOwed
  rw [if_neg (by simp [h]), if_neg (by simp [hs])]

theorem loaded_bad (h : s.now.dataError = true ∨ s.parityStrikes p = true) (k : Nat) (v : Word) :
    s.loaded p k v = Config.badLoad s.tick k := by
  unfold State.loaded
  rw [if_pos (by rcases h with h | h <;> simp [h])]

theorem parityStrikes_congr {u : State} (he : u.env = s.env) (hf : u.eff = s.eff) :
    u.parityStrikes p = s.parityStrikes p := by
  unfold State.parityStrikes State.dataCacheOn
  rw [State.now_congr he, hf]

/-- What an access comes to owe depends on the environment and the registers in effect alone. -/
theorem abortOwed_congr {u : State} (he : u.env = s.env) (hf : u.eff = s.eff) :
    u.abortOwed p load = s.abortOwed p load := by
  unfold State.abortOwed
  rw [parityStrikes_congr he hf, State.now_congr he]

theorem loaded_congr {u : State} (he : u.env = s.env) (hf : u.eff = s.eff) (ht : u.tick = s.tick) (k : Nat) (v : Word) :
    u.loaded p k v = s.loaded p k v := by
  unfold State.loaded
  rw [parityStrikes_congr he hf, State.now_congr he, ht]

end

theorem DataStep.tick_eq {s u : State} (h : DataStep s u) : u.tick = s.tick := by unfold DataStep at h; rw [h]

theorem DataStep.system {s u : State} (h : DataStep s u) : SystemKept s u := by
  unfold DataStep at h
  rw [h]
  exact .of (by simp)

/-! ## The memory an access leaves -/

/-- An access in progress, in a state that owes nothing more: the bytes it may have stored, and that a store voided by
an external error has stored none (rules R345, R402). -/
structure Accessing (s : State) (a : Access) (first n : Nat) (u : State) : Prop where
  step : DataStep s u
  dtlb : u.dtlb = a.state.dtlb
  owed : u.owed = s.owed
  memory : MemoryKeptBut first n s u
  voided : s.now.dataError = true → a.policy = .stallUntilComplete →
    u.mem = s.mem ∧ u.stored = s.stored ∧ u.dirty = s.dirty

/-- An access that is done: the abort it comes to owe is owed. -/
structure AccessDone (s : State) (a : Access) (first n : Nat) (owes : List OwedAbort) (u : State) : Prop where
  step : DataStep s u
  dtlb : u.dtlb = a.state.dtlb
  owed : u.owed = s.owed ++ owes
  memory : MemoryKeptBut first n s u
  voided : s.now.dataError = true → a.policy = .stallUntilComplete →
    u.mem = s.mem ∧ u.stored = s.stored ∧ u.dirty = s.dirty

section
variable {s u : State} {a : Access} {first n : Nat} {owes : List OwedAbort}

/-- A translated access has touched no memory. -/
theorem Accessing.start {write : Bool} {far va : Word} (h : dataTranslate write far va s = .ok a) :
    Accessing s a first n a.state := by
  obtain ⟨hs, hm, ho, hst, hd, _⟩ := dataTranslate_like h
  exact ⟨hs, rfl, ho, .of_mem hm, fun _ _ => ⟨hm, hst, hd⟩⟩

/-- Bytes stored among those the access may store. -/
theorem Accessing.storeBytes (h : Accessing s a first n u) {addr : Nat} {bs : List Byte} (h1 : first ≤ addr)
    (h2 : addr + bs.length ≤ first + n) : Accessing s a first n (u.storeBytes a.policy addr bs) where
  step := h.step.storeBytes _ _ _
  dtlb := h.dtlb
  owed := h.owed
  memory x hx := (MemoryKeptBut.storeBytes u a.policy addr bs x (by omega)).trans (h.memory x hx)
  voided he hp := by
    have hv : u.storeVoided a.policy = true := by
      unfold State.storeVoided
      rw [State.now_congr h.step.env_eq, he, hp]
      rfl
    obtain ⟨hm, hst, hd⟩ := h.voided he hp
    obtain ⟨hm', hst'⟩ := State.storeBytes_voided hv addr bs
    refine ⟨hm'.trans hm, hst'.trans hst, ?_⟩
    rw [State.storeBytes_dirty, hd, hp]
    exact Bool.or_false _

/-- The access comes to owe its abort. -/
theorem Accessing.owe (h : Accessing s a first n u) (load : Bool) (ho : s.abortOwed a.policy load = owes) :
    AccessDone s a first n owes (u.owe a.policy load) where
  step := h.step.trans rfl
  dtlb := h.dtlb
  owed := by rw [State.owe_owed, abortOwed_congr h.step.env_eq h.step.eff_eq, h.owed, ho]
  memory := h.memory
  voided := h.voided

theorem AccessDone.noteSubWord (h : AccessDone s a first n owes u) : AccessDone s a first n owes u.noteSubWord where
  step := h.step.trans rfl
  dtlb := h.dtlb
  owed := h.owed
  memory := h.memory
  voided := h.voided

end

/-! ## The registers an access writes -/

/-- Registers of the current mode written, and nothing else: those named may differ. -/
structure RegisterStep (rs : List Reg) (u x : State) : Prop where
  only : x = { u with gpr := x.gpr }
  kept : RegistersKeptBut rs u x

section
variable {rs : List Reg} {s u x : State} {r : Reg} {v : Word}

theorem RegisterStep.refl (rs : List Reg) (u : State) : RegisterStep rs u u := ⟨rfl, .none rfl⟩

theorem RegisterStep.cpsr_eq (h : RegisterStep rs u x) : x.cpsr = u.cpsr := by rw [h.only]

theorem RegisterStep.setReg (h : RegisterStep rs u x) (hr : r ≠ Reg.pc) (hm : r ∈ rs) :
    RegisterStep rs u (x.setReg r v) := by
  have hmode : x.mode = u.mode := State.mode_congr h.cpsr_eq
  rw [State.setReg_eq hr]
  refine ⟨?_, fun k hk => ?_⟩
  · have := h.only
    rw [this]
    rfl
  · rw [State.setBanked_gpr, hmode]
    refine (Vector.getElem_set_ne _ _ fun e => hk r hm (Fin.ext e.symm)).trans (h.kept k hk)

theorem RegisterStep.writeBack (h : RegisterStep rs u x) {rn : Reg} {m : Address}
    (hw : ∀ v, m.writeback = some v → rn ≠ Reg.pc ∧ rn ∈ rs) : RegisterStep rs u (x.writeBack rn m) := by
  unfold State.writeBack
  split
  · exact h
  · next v hv =>
    obtain ⟨hr, hm⟩ := hw v hv
    exact h.setReg hr hm

theorem reg_writeBack_same {rn : Reg} {m : Address} (hr : rn ≠ Reg.pc) (hv : m.writeback = some v) :
    (u.writeBack rn m).reg rn = v := by
  unfold State.writeBack
  rw [hv]
  exact State.reg_setReg_same u hr v

theorem reg_writeBack_other {rn q : Reg} {m : Address} (hq : q ≠ Reg.pc) (hn : m.writeback ≠ none → q ≠ rn) :
    (u.writeBack rn m).reg q = u.reg q := by
  unfold State.writeBack
  split
  · rfl
  · next v hv => exact State.reg_setReg_other u hq (hn (by rw [hv]; simp)) v

end

/-! ## An access that completes owing an abort -/

/-- Everything an instruction does whose data access completes with bad data in the registers it loads. -/
structure OwingAccess (s : State) (d : DataAccess) (a : Access) (owes : List OwedAbort) (t : State) : Prop where
  owed : t.owed = s.owed ++ owes
  base : ∀ rn v, d.base = some (rn, v) → t.reg rn = v
  loads : ∀ (k : Nat) r, d.loads[k]? = some r → r ≠ Reg.pc → t.reg r = Config.badLoad s.tick k
  advanced : Reg.pc ∉ d.loads → Advanced s t ∧ t.cpsr = s.cpsr
  transferred : Reg.pc ∈ d.loads → t.pc.toNat = (Config.badLoad s.tick 0).toNat / 2 * 2 ∧ t.pastTop = false
    ∧ t.thumb = (Config.badLoad s.tick 0).getLsbD 0 ∧ ∀ k, k ≠ 5 → t.cpsr.getLsbD k = s.cpsr.getLsbD k
  frame : OwingFrame d.writes (d.storedAt s a.pa) d.storedBytes a.state s t
  voided : s.now.dataError = true → a.policy = .stallUntilComplete →
    MemoryKept s t ∧ t.stored = s.stored ∧ t.dirty = s.dirty

section
variable {s u x t : State} {d : DataAccess} {a : Access} {owes : List OwedAbort}

/-- What the access leaves of memory, the TLBs and the aborts owed, once the registers are written too. -/
theorem AccessDone.frame (h : AccessDone s a (d.storedAt s a.pa) d.storedBytes owes u)
    (hx : RegisterStep d.writes u x) (ht : t = { x with cpsr := t.cpsr, pc := t.pc, pastTop := t.pastTop }) :
    OwingFrame d.writes (d.storedAt s a.pa) d.storedBytes a.state s t
      ∧ t.owed = s.owed ++ owes
      ∧ (s.now.dataError = true → a.policy = .stallUntilComplete →
        MemoryKept s t ∧ t.stored = s.stored ∧ t.dirty = s.dirty) := by
  have hgpr : t.gpr = x.gpr := by rw [ht]
  have hkeep : t = { u with gpr := t.gpr, cpsr := t.cpsr, pc := t.pc, pastTop := t.pastTop } := by
    rw [hx.only] at ht
    rw [ht]
  have hmem : t.mem = u.mem := by rw [hkeep]
  have hsys : SystemKept u t := by rw [hkeep]; exact .of (by simp)
  refine ⟨⟨fun k hk => ?_, ?_, ?_, ?_, fun y hy => ?_⟩, ?_, fun he hp => ?_⟩
  · have hm : u.mode = s.mode := h.step.mode_eq
    rw [hgpr, hx.kept k (by rw [hm]; exact hk), h.step.gpr_eq]
  · rw [hkeep]; exact h.step.acc0_eq
  · have hs := h.step.system
    exact ⟨fun m => (hsys.spsr m).trans (hs.spsr m), hsys.cp15.trans hs.cp15, hsys.eff.trans hs.eff,
      hsys.fsr.trans hs.fsr, hsys.far.trans hs.far, hsys.dcacheLock.trans hs.dcacheLock,
      hsys.pending.trans hs.pending, hsys.cpwait.trans hs.cpwait, hsys.itlb.trans hs.itlb, hsys.env.trans hs.env,
      hsys.tick.trans hs.tick⟩
  · rw [hkeep]; exact h.dtlb
  · rw [hmem]; exact h.memory y hy
  · rw [hkeep]; exact h.owed
  · obtain ⟨hm, hst, hd⟩ := h.voided he hp
    exact ⟨fun y => by rw [hmem, hm], by rw [hkeep]; exact hst, by rw [hkeep]; exact hd⟩

/-- An access whose registers are all below R15: the program counter advances. -/
theorem AccessDone.owing (h : AccessDone s a (d.storedAt s a.pa) d.storedBytes owes u)
    (hx : RegisterStep d.writes u x) (hpc : Reg.pc ∉ d.loads)
    (base : ∀ rn v, d.base = some (rn, v) → rn ≠ Reg.pc ∧ x.reg rn = v)
    (loads : ∀ (k : Nat) r, d.loads[k]? = some r → x.reg r = Config.badLoad s.tick k) :
    OwingAccess s d a owes x.advance := by
  obtain ⟨hf, ho, hv⟩ := h.frame (t := x.advance) hx rfl
  have hxpc : x.pc = s.pc := by rw [hx.only]; exact h.step.pc_eq
  exact
    { owed := ho
      base := fun rn v hb => by
        obtain ⟨hr, hv⟩ := base rn v hb
        rw [State.reg_advance _ hr, hv]
      loads := fun k r hk hr => by rw [State.reg_advance _ hr, loads k r hk]
      advanced := fun _ => ⟨⟨by rw [State.advance_pc, hxpc], by rw [State.advance_pastTop, hxpc]⟩,
        hx.cpsr_eq.trans h.step.cpsr_eq⟩
      transferred := fun hin => absurd hin hpc
      frame := hf
      voided := hv }

/-! ## The accesses -/

section
variable {m : Address} {rn rd : Reg} {w : Width} {write : Bool} {loads : List Reg} {v : Word}

theorem of_getElem?_singleton {b r : Reg} {k : Nat} (h : [b][k]? = some r) : k = 0 ∧ r = b := by
  cases k with
  | zero => exact ⟨rfl, (Option.some.inj h).symm⟩
  | succ k => cases h

theorem of_getElem?_pair {b c r : Reg} {k : Nat} (h : [b, c][k]? = some r) :
    (k = 0 ∧ r = b) ∨ (k = 1 ∧ r = c) := by
  cases k with
  | zero => exact .inl ⟨rfl, (Option.some.inj h).symm⟩
  | succ k =>
    obtain ⟨rfl, hr⟩ := of_getElem?_singleton h
    exact .inr ⟨rfl, hr⟩

theorem indexedAccess_base {q : Reg} (h : (indexedAccess loads write w rn m).base = some (q, v)) :
    q = rn ∧ m.writeback = some v := by
  unfold indexedAccess at h
  cases hm : m.writeback with
  | none => rw [hm] at h; cases h
  | some x =>
    rw [hm] at h
    cases h
    exact ⟨rfl, rfl⟩

theorem mem_writes_of_load (h : rd ∈ d.loads) (hr : rd ≠ Reg.pc) : rd ∈ d.writes := by
  unfold DataAccess.writes
  exact List.mem_append_left _ (List.mem_filter.2 ⟨h, decide_eq_true hr⟩)

theorem mem_writes_of_writeback (h : m.writeback = some v) : rn ∈ (indexedAccess loads write w rn m).writes := by
  unfold DataAccess.writes indexedAccess
  rw [h]
  exact List.mem_append_right _ (by simp)

/-- The base register written back, of an addressing mode that names no R15. -/
theorem RegisterStep.indexed (h : RegisterStep (indexedAccess loads write w rn m).writes u x)
    (hw : m.writeback ≠ none → rn ≠ Reg.pc) :
    RegisterStep (indexedAccess loads write w rn m).writes u (x.writeBack rn m) :=
  h.writeBack fun _ hv => ⟨hw (by rw [hv]; simp), mem_writes_of_writeback hv⟩

/-- LDR and LDRSH, of a register below R15. -/
theorem AccessDone.load (hd : d = indexedAccess [rd] write w rn m)
    (h : AccessDone s a (d.storedAt s a.pa) d.storedBytes owes u) (hr : rd ≠ Reg.pc)
    (hw : m.writeback ≠ none → rn ≠ Reg.pc ∧ rn ≠ rd) (hv : v = Config.badLoad s.tick 0) :
    OwingAccess s d a owes ((u.writeBack rn m).setReg rd v).advance := by
  subst hd hv
  refine h.owing (((RegisterStep.refl _ u).indexed fun h => (hw h).1).setReg hr
    (mem_writes_of_load (by simp [indexedAccess]) hr))
    (by simp [indexedAccess, hr.symm]) (fun q x hb => ?_) fun k r hk => ?_
  · obtain ⟨rfl, hx⟩ := indexedAccess_base hb
    obtain ⟨hq, hqd⟩ := hw (by rw [hx]; simp)
    exact ⟨hq, by rw [State.reg_setReg_other _ hq hqd, reg_writeBack_same hq hx]⟩
  · obtain ⟨rfl, rfl⟩ := of_getElem?_singleton hk
    exact State.reg_setReg_same _ hr _

/-- LDRD. -/
theorem AccessDone.loadPair {v' : Word} (hd : d = indexedAccess [rd, rd + 1] write w rn m)
    (h : AccessDone s a (d.storedAt s a.pa) d.storedBytes owes u) (hr : rd ≠ Reg.pc)
    (hr1 : rd + 1 ≠ Reg.pc)
    (hw : m.writeback ≠ none → rn ≠ Reg.pc) (hne1 : m.writeback ≠ none → rn ≠ rd)
    (hne2 : m.writeback ≠ none → rn ≠ rd + 1)
    (hv : v = Config.badLoad s.tick 0) (hv' : v' = Config.badLoad s.tick 1) :
    OwingAccess s d a owes (((u.setReg rd v).setReg (rd + 1) v').writeBack rn m).advance := by
  subst hd hv hv'
  have hne : ∀ r : Reg, r ≠ r + 1 := by decide
  refine h.owing ((((RegisterStep.refl _ u).setReg hr (mem_writes_of_load (by simp [indexedAccess]) hr)).setReg hr1
    (mem_writes_of_load (by simp [indexedAccess]) hr1)).indexed hw)
    (List.not_mem_cons_of_ne_of_not_mem hr.symm (List.not_mem_cons_of_ne_of_not_mem hr1.symm
      List.not_mem_nil))
    (fun q x hb => ?_) fun k r hk => ?_
  · obtain ⟨rfl, hx⟩ := indexedAccess_base hb
    have hq := hw (by rw [hx]; simp)
    exact ⟨hq, reg_writeBack_same hq hx⟩
  · rcases of_getElem?_pair hk with ⟨rfl, rfl⟩ | ⟨rfl, rfl⟩
    · rw [reg_writeBack_other hr fun hn => (hne1 hn).symm, State.reg_setReg_other _ hr (hne _),
        State.reg_setReg_same _ hr]
    · rw [reg_writeBack_other hr1 fun hn => (hne2 hn).symm, State.reg_setReg_same _ hr1]

/-- STR and STRD. -/
theorem AccessDone.store (hd : d = indexedAccess [] write w rn m)
    (h : AccessDone s a (d.storedAt s a.pa) d.storedBytes owes u) (hw : m.writeback ≠ none → rn ≠ Reg.pc) :
    OwingAccess s d a owes (u.writeBack rn m).advance := by
  subst hd
  refine h.owing ((RegisterStep.refl _ u).indexed hw) (by simp [indexedAccess]) (fun q x hb => ?_)
    fun k r hk => by cases hk
  obtain ⟨rfl, hx⟩ := indexedAccess_base hb
  have hq := hw (by rw [hx]; simp)
  exact ⟨hq, reg_writeBack_same hq hx⟩

/-- SWP and SWPB. -/
theorem AccessDone.swap {o : Option Width} {va : Word} (hd : d = ⟨[rd], true, o, va, none⟩)
    (h : AccessDone s a (d.storedAt s a.pa) d.storedBytes owes u) (hr : rd ≠ Reg.pc)
    (hv : v = Config.badLoad s.tick 0) : OwingAccess s d a owes (u.setReg rd v).advance := by
  subst hd hv
  refine h.owing ((RegisterStep.refl _ u).setReg hr (mem_writes_of_load (by simp) hr)) (by simp [hr.symm])
    (fun q x hb => by cases hb) fun k r hk => ?_
  obtain ⟨rfl, rfl⟩ := of_getElem?_singleton hk
  exact State.reg_setReg_same _ hr _

/-- LDR of R15: bad data is a transfer of control (rule R280). -/
theorem AccessDone.loadPc (hd : d = indexedAccess [Reg.pc] write w rn m)
    (h : AccessDone s a (d.storedAt s a.pa) d.storedBytes owes u) (hw : m.writeback ≠ none → rn ≠ Reg.pc)
    (hv : v = Config.badLoad s.tick 0) (h4 : v.toNat % 4 ≠ 2) :
    ∃ t, (u.writeBack rn m).exchangeBranch v = .next t ∧ OwingAccess s d a owes t := by
  subst hd hv
  have hx := (RegisterStep.refl _ u).indexed (loads := [Reg.pc]) (write := write) (w := w) hw
  obtain ⟨t, ht, hpc, htop, hT, hb, hkeep⟩ := State.exchangeBranch_spec (u.writeBack rn m) h4
  obtain ⟨hf, ho, hvd⟩ := h.frame (t := t) hx (by rw [hkeep])
  have hcpsr : (u.writeBack rn m).cpsr = s.cpsr := (State.writeBack_cpsr u rn m).trans h.step.cpsr_eq
  rw [hcpsr] at hb
  refine ⟨t, ht, ho, fun q x hbase => ?_, fun k r hk hr => ?_, fun hn => absurd (by simp [indexedAccess]) hn,
    fun _ => ⟨hpc, htop, hT, hb⟩, hf, hvd⟩
  · obtain ⟨rfl, hwb⟩ := indexedAccess_base hbase
    have hq := hw (by rw [hwb]; simp)
    have hmode : t.mode = (u.writeBack q m).mode :=
      State.mode_of_low fun j hj => by rw [hb j (by omega), hcpsr]
    have hgpr : t.gpr = (u.writeBack q m).gpr := by rw [hkeep]
    have hsame := reg_writeBack_same (u := u) hq hwb
    rw [State.reg_banked _ hq] at hsame ⊢
    simp only [hmode, hgpr]
    exact hsame
  · obtain ⟨_, hpc⟩ := of_getElem?_singleton hk
    exact absurd hpc hr

end

end

end Sys2Proof.Machine
end

section
/-!
The instructions whose data access completes owing an imprecise abort, and the report of what is owed (rules R296, R352
to R354, R360).
-/

namespace Sys2Proof.Machine

/-! ## Accesses that are aligned and translate, whatever the environment reports -/

section
variable {s : State} {a : Access} {va v w : Word}

theorem loadWord_eq (hal : va.toNat % 4 = 0) (ht : dataTranslate false va va s = .ok a) :
    loadWord va s
      = .ok (a.state.owe a.policy true, a.state.loaded a.policy 0 (Memory.readWord a.state.mem a.pa.toNat)) := by
  unfold loadWord
  rw [alignment_aligned .word hal, ht]
  rfl

theorem loadSignedHalf_eq (hal : va.toNat % 2 = 0) (ht : dataTranslate false va va s = .ok a) :
    loadSignedHalf va s
      = .ok ((a.state.owe a.policy true).noteSubWord,
          a.state.loaded a.policy 0 ((Memory.readHalf a.state.mem (a.state.halfLane a.pa)).signExtend 32)) := by
  unfold loadSignedHalf
  rw [alignment_aligned .half hal, ht]
  rfl

theorem loadDouble_eq (hal : va.toNat % 8 = 0) (ht : dataTranslate false va va s = .ok a) :
    loadDouble va s
      = .ok (a.state.owe a.policy true, a.state.loaded a.policy 0 (Memory.readWord a.state.mem a.pa.toNat),
          a.state.loaded a.policy 1 (Memory.readWord a.state.mem (a.pa + 4).toNat)) := by
  unfold loadDouble
  rw [alignment_aligned .double hal, ht]
  rfl

theorem storeWordAt_eq (hal : va.toNat % 4 = 0) (ht : dataTranslate true va va s = .ok a) :
    storeWordAt va v s = .ok ((a.state.storeWord a.policy a.pa v).owe a.policy false) := by
  unfold storeWordAt
  rw [alignment_aligned .word hal, ht]
  rfl

theorem storeDoubleAt_eq (hal : va.toNat % 8 = 0) (ht : dataTranslate true va va s = .ok a) :
    storeDoubleAt va v w s
      = .ok (((a.state.storeWord a.policy a.pa v).storeWord a.policy (a.pa + 4) w).owe a.policy false) := by
  unfold storeDoubleAt
  rw [alignment_aligned .double hal, ht]
  rfl

theorem swapWordAt_eq (hal : va.toNat % 4 = 0) (ht : dataTranslate true va va s = .ok a) :
    swapWordAt va v s
      = .ok ((a.state.storeWord a.policy a.pa v).owe a.policy true,
          a.state.loaded a.policy 0 (Memory.readWord a.state.mem a.pa.toNat)) := by
  unfold swapWordAt
  rw [alignment_aligned .word hal, ht]
  rfl

theorem swapByteAt_eq (ht : dataTranslate true va va s = .ok a) :
    swapByteAt va v s
      = .ok (((a.state.storeBytes a.policy (a.state.byteLane a.pa) [byteOfWord v 0]).owe a.policy true).noteSubWord,
          a.state.loaded a.policy 0 ((Memory.read a.state.mem (a.state.byteLane a.pa)).setWidth 32)) := by
  unfold swapByteAt
  rw [ht]
  rfl

end

/-! ## Accesses that err -/

/-- An aligned access that translates and on which the environment reports an error, or a parity error that strikes a
load: what is owed for it, and that a register loaded takes bad data. -/
structure Erring (s : State) (d : DataAccess) (a : Access) (owes : List OwedAbort) : Prop where
  aligned : ∀ w, d.width = some w → d.address.toNat % w.bytes = 0
  translated : dataTranslate d.write d.address d.address s = .ok a
  owes : s.abortOwed a.policy (!d.loads.isEmpty) = owes
  bad : d.loads ≠ [] → ∀ k v, s.loaded a.policy k v = Config.badLoad s.tick k
  target : Reg.pc ∈ d.loads → (Config.badLoad s.tick 0).toNat % 4 ≠ 2

section
variable {s : State} {d : DataAccess} {a : Access} {owes : List OwedAbort} {m : Address} {rn rd : Reg}

/-- The two errors of an access. -/
theorem Erring.of {bad : Bool} (ha : ∀ w, d.width = some w → d.address.toNat % w.bytes = 0)
    (ht : dataTranslate d.write d.address d.address s = .ok a)
    (hpc : Reg.pc ∈ d.loads → (Config.badLoad s.tick 0).toNat % 4 ≠ 2)
    (h : (s.now.dataError = true ∧ bad = true
        ∧ owes = [⟨.external, if a.policy = .stallUntilComplete then some 3 else none⟩])
      ∨ (s.now.dataError = false ∧ s.now.dataParity = true ∧ a.policy.isCached = true ∧ s.dataCacheOn = true
        ∧ ((d.loads ≠ [] ∧ bad = true ∧ owes = [⟨.parity, none⟩]) ∨ (d.loads = [] ∧ bad = false ∧ owes = [])))) :
    Erring s d a owes := by
  rcases h with ⟨he, _, rfl⟩ | ⟨he, hp, hc, hon, hl⟩
  · exact ⟨ha, ht, abortOwed_external he, fun _ => loaded_bad (.inl he), hpc⟩
  · have hs : s.parityStrikes a.policy = true := parityStrikes_eq_true hp hc hon
    refine ⟨ha, ht, ?_, fun _ => loaded_bad (.inr hs), hpc⟩
    rcases hl with ⟨hne, _, rfl⟩ | ⟨hnil, _, rfl⟩
    · rw [List.isEmpty_eq_false_iff.2 hne]
      exact abortOwed_parity he hs
    · exact abortOwed_none he (by rw [hnil]; rfl)

/-- The data a translated access gives a register it loads. -/
theorem Erring.loaded (h : Erring s d a owes) (hl : d.loads ≠ []) (k : Nat) (v : Word) :
    a.state.loaded a.policy k v = Config.badLoad s.tick k := by
  have hs : DataStep s a.state := (dataTranslate_keeps h.translated).step
  rw [loaded_congr hs.env_eq hs.eff_eq hs.tick_eq]
  exact h.bad hl k v

theorem Erring.start (h : Erring s d a owes) : Accessing s a (d.storedAt s a.pa) d.storedBytes a.state :=
  .start h.translated

/-! ## The shared operations -/

/-- LDR at an address. -/
theorem Erring.loadRegister (h : Erring s (indexedAccess [rd] false .word rn m) a owes)
    (hw : m.writeback ≠ none → rn ≠ Reg.pc ∧ rn ≠ rd) :
    ∃ t, s.loadRegister rn rd m = .next t ∧ OwingAccess s (indexedAccess [rd] false .word rn m) a owes t := by
  have hdone := h.start.owe true h.owes
  have hv := h.loaded (by simp [indexedAccess]) 0 (Memory.readWord a.state.mem a.pa.toNat)
  have hload : loadWord m.address s = _ := loadWord_eq (h.aligned .word rfl) h.translated
  unfold State.loadRegister
  rw [hload, hv]
  by_cases hr : rd = Reg.pc
  · subst hr
    simp only [if_true]
    exact AccessDone.loadPc rfl hdone (fun hn => (hw hn).1) rfl (h.target (by simp [indexedAccess]))
  · simp only [hr, if_false]
    exact ⟨_, rfl, AccessDone.load rfl hdone hr hw rfl⟩

/-- LDRSH at an address. -/
theorem Erring.loadHalfRegister (h : Erring s (indexedAccess [rd] false .half rn m) a owes) (hr : rd ≠ Reg.pc)
    (hw : m.writeback ≠ none → rn ≠ Reg.pc ∧ rn ≠ rd) :
    ∃ t, s.loadHalfRegister rn rd m = .next t ∧ OwingAccess s (indexedAccess [rd] false .half rn m) a owes t := by
  have hdone := (h.start.owe true h.owes).noteSubWord
  have hv := h.loaded (by simp [indexedAccess]) 0
    ((Memory.readHalf a.state.mem (a.state.halfLane a.pa)).signExtend 32)
  refine ⟨_, ?_, AccessDone.load rfl hdone hr hw hv⟩
  have hload : loadSignedHalf m.address s = _ := loadSignedHalf_eq (h.aligned .half rfl) h.translated
  unfold State.loadHalfRegister
  rw [hload]
  rfl

/-- LDRD at an address. -/
theorem Erring.loadPair (h : Erring s (indexedAccess [rd, rd + 1] false .double rn m) a owes) (hr : rd ≠ Reg.pc)
    (hr1 : rd + 1 ≠ Reg.pc) (hw : m.writeback ≠ none → rn ≠ Reg.pc ∧ rn ≠ rd ∧ rn ≠ rd + 1) :
    ∃ t, s.loadPair rn rd m = .next t ∧ OwingAccess s (indexedAccess [rd, rd + 1] false .double rn m) a owes t := by
  have hdone := h.start.owe true h.owes
  have hv := h.loaded (by simp [indexedAccess])
  refine ⟨_, ?_, AccessDone.loadPair rfl hdone hr hr1 (fun hn => (hw hn).1) (fun hn => (hw hn).2.1)
    (fun hn => (hw hn).2.2) (hv 0 (Memory.readWord a.state.mem a.pa.toNat))
    (hv 1 (Memory.readWord a.state.mem (a.pa + 4).toNat))⟩
  have hload : loadDouble m.address s = _ := loadDouble_eq (h.aligned .double rfl) h.translated
  unfold State.loadPair
  rw [hload]
  rfl

/-- STR at an address. -/
theorem Erring.storeRegister (h : Erring s (indexedAccess [] true .word rn m) a owes)
    (hw : m.writeback ≠ none → rn ≠ Reg.pc) :
    ∃ t, s.storeRegister rn rd m = .next t ∧ OwingAccess s (indexedAccess [] true .word rn m) a owes t := by
  have hstore := h.start.storeBytes (bs := bytesOfWord (s.storeValue rd)) (Nat.le_refl a.pa.toNat) (Nat.le_refl _)
  refine ⟨_, ?_, AccessDone.store rfl (hstore.owe false h.owes) hw⟩
  unfold State.storeRegister
  rw [storeWordAt_eq (va := m.address) (h.aligned .word rfl) h.translated]
  rfl

/-- The physical address of an aligned doubleword: its second word does not wrap around (rule R192). -/
theorem double_second {write : Bool} {far va : Word} (ht : dataTranslate write far va s = .ok a)
    (hal : va.toNat % 8 = 0) : (a.pa + 4).toNat = a.pa.toNat + 4 := by
  obtain ⟨x, hx, _⟩ := dataTranslate_ok ht
  have h8 : a.pa.toNat % 2 ^ 3 = va.toNat % 2 ^ 3 := by
    apply Nat.eq_of_testBit_eq
    intro i
    rw [Nat.testBit_mod_two_pow, Nat.testBit_mod_two_pow]
    by_cases hi : i < 3
    · have := translate_low hx (i := i) (by omega)
      simp only [BitVec.getLsbD] at this
      rw [this]
    · simp [hi]
  have := a.pa.isLt
  rw [BitVec.toNat_add, show (4 : Word).toNat = 4 from rfl]
  omega

/-- STRD at an address. -/
theorem Erring.storePair (h : Erring s (indexedAccess [] true .double rn m) a owes)
    (hw : m.writeback ≠ none → rn ≠ Reg.pc) :
    ∃ t, s.storePair rn rd m = .next t ∧ OwingAccess s (indexedAccess [] true .double rn m) a owes t := by
  have hal : m.address.toNat % 8 = 0 := h.aligned .double rfl
  have ht : dataTranslate true m.address m.address s = .ok a := h.translated
  have hsecond := double_second ht hal
  have hfirst := h.start.storeBytes (bs := bytesOfWord (s.reg rd)) (Nat.le_refl a.pa.toNat)
    (show a.pa.toNat + 4 ≤ a.pa.toNat + 8 by omega)
  have hboth := hfirst.storeBytes (addr := (a.pa + 4).toNat) (bs := bytesOfWord (s.reg (rd + 1)))
    (show a.pa.toNat ≤ (a.pa + 4).toNat by omega) (show (a.pa + 4).toNat + 4 ≤ a.pa.toNat + 8 by omega)
  refine ⟨_, ?_, AccessDone.store rfl (hboth.owe false h.owes) hw⟩
  unfold State.storePair
  rw [storeDoubleAt_eq hal ht]
  rfl

/-- SWP. -/
theorem Erring.swapWord {va v : Word} (h : Erring s ⟨[rd], true, some .word, va, none⟩ a owes) (hr : rd ≠ Reg.pc) :
    ∃ t, ((swapWordAt va v s).bind fun (t, r) => .ok (t.setReg rd r).advance).finish s = .next t
      ∧ OwingAccess s ⟨[rd], true, some .word, va, none⟩ a owes t := by
  have hstore := h.start.storeBytes (bs := bytesOfWord v) (Nat.le_refl a.pa.toNat) (Nat.le_refl _)
  have hv := h.loaded (by simp) 0 (Memory.readWord a.state.mem a.pa.toNat)
  refine ⟨_, ?_, AccessDone.swap rfl (hstore.owe true h.owes) hr hv⟩
  rw [swapWordAt_eq (va := va) (h.aligned .word rfl) h.translated]
  rfl

/-- SWPB: its byte has no alignment. -/
theorem Erring.swapByte {va v : Word} (h : Erring s ⟨[rd], true, none, va, none⟩ a owes) (hr : rd ≠ Reg.pc) :
    ∃ t, ((swapByteAt va v s).bind fun (t, r) => .ok (t.setReg rd r).advance).finish s = .next t
      ∧ OwingAccess s ⟨[rd], true, none, va, none⟩ a owes t := by
  have heff : a.state.eff = s.eff := (dataTranslate_keeps h.translated).step.eff_eq
  have hlane : a.state.byteLane a.pa = s.byteLane a.pa := by
    unfold State.byteLane State.bigEndian
    rw [heff]
  have hstore := h.start.storeBytes (addr := a.state.byteLane a.pa) (bs := [byteOfWord v 0])
    (show s.byteLane a.pa ≤ a.state.byteLane a.pa by rw [hlane])
    (show a.state.byteLane a.pa + 1 ≤ s.byteLane a.pa + 1 by rw [hlane])
  have hv := h.loaded (by simp) 0 ((Memory.read a.state.mem (a.state.byteLane a.pa)).setWidth 32)
  refine ⟨_, ?_, AccessDone.swap rfl (hstore.owe true h.owes).noteSubWord hr hv⟩
  rw [swapByteAt_eq (va := va) h.translated]
  rfl

/-- A predictable writeback of LDRD names neither R15 nor a register loaded (rule R191). -/
theorem doublePredictable_writeback {i : Index} {u : Bool} {b o : Word} (h : doublePredictable i rn rd = true)
    (hw : (indexedAddress i u b o).writeback ≠ none) : rn ≠ Reg.pc ∧ rn ≠ rd ∧ rn ≠ rd + 1 := by
  cases i <;> simp_all [indexedAddress, doublePredictable, Index.writesBack]

/-! ## The instructions -/

/-- A predictable instruction whose condition passes completes as its body does. -/
theorem checked_completes {i : Instr} {c : Cond} {b : Answer} {P : State → Prop} (hc : conditionPassed c s = true)
    (hp : i.predictable = true) (h : ∃ t, b = .next t ∧ P t) :
    ∃ t, conditional c s (predictably i b) = .next t ∧ P t := by
  rw [conditional_true hc, predictably_true hp]
  exact h

/-- Every load, store and swap whose access errs completes, owing its abort. -/
theorem Erring.exec {i : Instr} {c : Cond} (h : Erring s d a owes) (hd : dataAccessOf s i = some d)
    (hi : i.condition = some c) (hc : conditionPassed c s = true) (hp : i.predictable = true) :
    ∃ t, exec i s = .next t ∧ OwingAccess s d a owes t := by
  cases i <;> cases hd <;> cases hi
  case ldrImm =>
    exact checked_completes hc hp (h.loadRegister fun hw => basePredictable_writeback hp hw)
  case ldrReg =>
    exact checked_completes hc hp (h.loadRegister fun hw => basePredictable_writeback hp hw)
  case strImm =>
    exact checked_completes hc hp (h.storeRegister fun hw => (basePredictable_writeback hp hw).1)
  case strReg =>
    exact checked_completes hc hp (h.storeRegister fun hw => (basePredictable_writeback hp hw).1)
  case swp =>
    obtain ⟨hn, _⟩ := Bool.and_eq_true_iff.1 (Bool.and_eq_true_iff.1 hp).1
    exact checked_completes hc hp (h.swapWord (ne_pc_of_noneIsPc hn (by simp)))
  case swpb =>
    obtain ⟨hn, _⟩ := Bool.and_eq_true_iff.1 (Bool.and_eq_true_iff.1 hp).1
    exact checked_completes hc hp (h.swapByte (ne_pc_of_noneIsPc hn (by simp)))
  case ldrshImm =>
    obtain ⟨hr, hb⟩ := Bool.and_eq_true_iff.1 hp
    exact checked_completes hc hp (h.loadHalfRegister (bne_iff_ne.1 hr) fun hw => basePredictable_writeback hb hw)
  case ldrshReg =>
    obtain ⟨hr, hb⟩ := Bool.and_eq_true_iff.1 hp
    exact checked_completes hc hp (h.loadHalfRegister (bne_iff_ne.1 hr) fun hw => basePredictable_writeback hb hw)
  case ldrdImm =>
    obtain ⟨hr, hr1⟩ := doublePredictable_ne_pc hp
    exact checked_completes hc hp (h.loadPair hr hr1 fun hw => doublePredictable_writeback hp hw)
  case ldrdReg =>
    obtain ⟨hb, _⟩ := Bool.and_eq_true_iff.1 hp
    obtain ⟨hr, hr1⟩ := doublePredictable_ne_pc hb
    exact checked_completes hc hp (h.loadPair hr hr1 fun hw => doublePredictable_writeback hb hw)
  case strdImm =>
    exact checked_completes hc hp (h.storePair fun hw => doublePredictable_base hp hw)
  case strdReg =>
    obtain ⟨hb, _⟩ := Bool.and_eq_true_iff.1 hp
    exact checked_completes hc hp (h.storePair fun hw => doublePredictable_base hb hw)

end

/-! ## The report of what is owed (rule R354) -/

/-- No exception at a boundary: no owed abort is overdue. -/
theorem not_overdue_of_boundaryException {s : State} (h : s.boundaryException = none) :
    ∀ o ∈ s.owed, o.overdue = false := by
  refine takeOwed_eq_none.1 ?_
  unfold State.boundaryException at h
  split at h
  · cases h
  · next hr =>
    unfold State.reported at hr
    split at hr
    · cases hr
    · next ho => exact ho

/-- An instruction begins only while each abort owed may wait, and brings each one nearer to its report. -/
theorem Runs.owed {s u : State} {i : Instr} (h : Runs s i u) :
    (∀ o ∈ s.owed, o.deadline ≠ some 0) ∧ u.owed = s.owed.map OwedAbort.age := by
  obtain ⟨t, d, hl, hu, hb, _⟩ := h.reached
  have hland : LandStep s t := landPending_step _ hl
  have howed : t.owed = s.owed := by unfold LandStep at hland; rw [hland]
  refine ⟨fun o ho hz => ?_, by rw [hu, ← howed]; rfl⟩
  have hover := not_overdue_of_boundaryException hb o (howed ▸ ho)
  unfold OwedAbort.overdue at hover
  rw [hz] at hover
  cases hover

/-- Settles O43: each load, store and swap that errs, the age of what is owed, and what an access comes to owe. -/
theorem impreciseAbortsOwed : Obligations.ImpreciseAbortsOwed := by
  refine ⟨fun i c s d a bad owes hd hi hc hp hal ht hpc he => ?_, fun s u i h => h.owed, fun s p load =>
    ⟨abortOwed_external, fun he hpar hon hl hcached => ?_, fun he hn => ?_⟩⟩
  · obtain ⟨t, hx, h⟩ := (Erring.of hal ht hpc he).exec hd hi hc hp
    exact ⟨t, hx, h.owed, h.base, fun _ => h.loads, h.advanced, h.transferred, h.frame, h.voided⟩
  · rw [hl]
    exact abortOwed_parity he (parityStrikes_eq_true hpar hcached hon)
  · refine abortOwed_none he ?_
    unfold State.parityStrikes
    rcases hn with h | h | h | h <;> simp [h]

end Sys2Proof.Machine
end

section
/-!
Memory: every step keeps its canonical form (log 3).
-/

namespace Sys2Proof.Machine

theorem LandStep.mem_eq {s t : State} (h : LandStep s t) : t.mem = s.mem := by unfold LandStep at h; rw [h]

theorem State.MemoryCanonical.congr {s t : State} (h : s.MemoryCanonical) (hm : t.mem = s.mem) :
    t.MemoryCanonical := by
  unfold State.MemoryCanonical
  rw [hm]
  exact h

/-- A data access stores inside the address space, and nothing else an instruction does writes memory. -/
theorem Executed.canonical {i : Instr} {s t : State} (h : Executed i s t) (hs : s.MemoryCanonical) :
    t.MemoryCanonical := by
  cases h.effect with
  | access keeps _ core _ => exact (keeps.canonical hs).congr core.mem_eq
  | control write core _ => exact hs.congr (core.mem_eq.trans (State.writeCp15_step write).mem_eq)

theorem memoryCanonical_stepInvariant : StepInvariant State.MemoryCanonical where
  land _ _ _ _ _ ha hs := hs.congr (Cp15Effect.apply_step ha).mem_eq
  exception s k link _ _ _ hs := hs.congr (State.takeException_mem s k link)
  fill _ _ hs := hs
  exec _ _ _ he hs := (exec_executed he).canonical hs
  books _ _ _ _ _ hs := hs

/-- Settles O6: only a data access writes memory, and it keeps the canonical form. -/
theorem stepKeepsMemoryCanonical : Obligations.StepKeepsMemoryCanonical :=
  fun _ _ h => memoryCanonical_stepInvariant.step h

end Sys2Proof.Machine
end

section
/-!
The TLBs entry by entry: what a walk's fill, a lock, an invalidation and an unlock leave (rules R121, R122, R127 to
R129, R248, R252), and the landing of the functions that do it (rules R114, R254, R256).
-/

namespace Sys2Proof.Machine

/-! ## One TLB of a state -/

section
variable {side other : Side}

@[simp] theorem State.tlb_setTlb_same (s : State) (side : Side) (l : Tlb) : (s.setTlb side l).tlb side = l := by
  cases side <;> rfl

theorem State.tlb_setTlb_other (s : State) (l : Tlb) (h : side ≠ other) :
    (s.setTlb side l).tlb other = s.tlb other := by
  cases side <;> cases other
  case instruction.data => rfl
  case data.instruction => rfl
  all_goals exact absurd rfl h

end

/-! ## The fill of a walk (rule R127) -/

/-- Where the round-robin pointer goes when a walk fills an entry. -/
theorem Tlb.fill_rrPtr_val (l : Tlb) (e : TlbEntry) :
    (l.fill e).rrPtr.val = if l.rrPtr.val = 31 then l.lockPtr.val else l.rrPtr.val + 1 := by
  rw [Tlb.fill_rrPtr]
  have h31 : l.rrPtr = 31 ↔ l.rrPtr.val = 31 := Fin.ext_iff
  by_cases h : l.rrPtr.val = 31
  · rw [if_pos h, if_pos (h31.2 h)]
  · have hlt : l.rrPtr.val + 1 < 32 := by have := l.rrPtr.isLt; omega
    rw [if_neg h, if_neg (mt h31.1 h)]
    exact Nat.mod_eq_of_lt hlt

section
variable {s t : State} {side : Side} {write : Bool} {va pa : Word} {a : Attributes}

/-- An access whose translation is found moves nothing. -/
theorem translate_found (hm : s.mmuOn = true) (h : translate side write va s = .ok t pa a) {e : TlbEntry}
    (he : (s.tlb side).find (remap s.eff.pid va) = some e) : t = s := by
  rw [translate_on hm (.inl ⟨he, rfl⟩)] at h
  obtain ⟨ht, _⟩ := checked_ok h
  exact ht

/-- An access whose translation is not found is walked, and the translation of the walk fills its TLB. -/
theorem translate_walked (hm : s.mmuOn = true) (h : translate side write va s = .ok t pa a)
    (hf : (s.tlb side).find (remap s.eff.pid va) = none) :
    ∃ e, walk s.mem (s.walkAbort side) s.eff.auxControl s.eff.ttb (remap s.eff.pid va) = .ok e
      ∧ t = s.setTlb side ((s.tlb side).fill e) := by
  cases hw : walk s.mem (s.walkAbort side) s.eff.auxControl s.eff.ttb (remap s.eff.pid va) with
  | error f => rw [translate_walkFault hm hf hw] at h; cases h
  | ok e =>
    rw [translate_on hm (.inr ⟨hf, hw, rfl⟩)] at h
    obtain ⟨ht, _⟩ := checked_ok h
    exact ⟨e, rfl, ht⟩

end

/-- Settles O57: a translation found changes nothing, and one walked for fills its TLB. -/
theorem roundRobinFillsNextEntry : Obligations.RoundRobinFillsNextEntry := by
  refine ⟨rfl, rfl, fun side write va pa s t a hm h => ⟨fun e he => translate_found hm h he, fun hf => ?_⟩,
    fun l e hl hr => ?_⟩
  · obtain ⟨e, hw, rfl⟩ := translate_walked hm h hf
    rw [State.tlb_setTlb_same]
    exact ⟨e, hw, by rw [Tlb.fill_entries, if_pos rfl], fun k hk => by rw [Tlb.fill_entries, if_neg hk.symm],
      Tlb.fill_rrPtr_val _ e, Tlb.fill_lockPtr _ e⟩
  · rw [Tlb.fill_rrPtr, if_pos hr, hl]

/-! ## A lock operation (rules R128, R129) -/

section
variable {l : Tlb}

/-- With the lock pointer below 31 the entry there is locked. -/
theorem Tlb.lock_below (h : l.lockPtr.val < 31) (e : TlbEntry) :
    l.lock e = { entries := l.entries.set l.lockPtr { e with valid := true, locked := true }
                 lockPtr := l.lockPtr + 1
                 rrPtr := 31 } :=
  if_pos h

/-- With the lock pointer at 31 entry 31 is filled, not locked. -/
theorem Tlb.lock_full (h : l.lockPtr = 31) (e : TlbEntry) :
    l.lock e = { l with entries := l.entries.set 31 { e with valid := true, locked := false } } :=
  if_neg (by rw [h]; decide)

theorem Tlb.lock_lockPtr_val (h : l.lockPtr.val < 31) (e : TlbEntry) :
    (l.lock e).lockPtr.val = l.lockPtr.val + 1 := by
  rw [Tlb.lock_below h]
  exact Nat.mod_eq_of_lt (show l.lockPtr.val + 1 < 32 by omega)

/-- In an ordered TLB whose lock pointer is at 31 the round-robin pointer is there too. -/
theorem Tlb.Ordered.rrPtr_full (ho : l.Ordered) (h : l.lockPtr = 31) : l.rrPtr = 31 := by
  obtain ⟨_, hr⟩ := ho
  rw [h] at hr
  exact Fin.le_antisymm (Nat.le_of_lt_succ l.rrPtr.isLt) hr

/-- The locked entries of an ordered TLB lie below its lock pointer. -/
theorem Tlb.Ordered.locked_iff (ho : l.Ordered) (k : Fin 32) :
    l.entries[k].locked = true ↔ k.val < l.lockPtr.val := by
  obtain ⟨hl, _⟩ := ho
  rw [hl k, decide_eq_true_iff]
  exact Iff.rfl

theorem Tlb.entries_set_same (g : Vector TlbEntry 32) (k : Fin 32) (e : TlbEntry) : (g.set k e)[k] = e :=
  Vector.getElem_set_self k.isLt

theorem Tlb.entries_set_other (g : Vector TlbEntry 32) {j k : Fin 32} (e : TlbEntry) (h : k ≠ j) :
    (g.set j e)[k] = g[k] :=
  Vector.getElem_set_ne j.isLt k.isLt fun x => h (Fin.ext x.symm)

end

/-- Settles O58: the two cases of the lock pointer, and the order that a lock keeps (rule R129). -/
theorem lockPointerLeavesEntry31Free : Obligations.LockPointerLeavesEntry31Free := by
  intro l e ho
  have hlock : (l.lock e).Ordered := ho.lock e
  refine ⟨fun h => ?_, fun h => ?_, hlock, ?_, hlock.locked_iff⟩
  · rw [Tlb.lock_full h]
    exact ⟨Tlb.entries_set_same _ 31 _, h, ho.rrPtr_full h, fun k hk => Tlb.entries_set_other _ _ hk⟩
  · refine ⟨?_, Tlb.lock_lockPtr_val h e, ?_, fun k hk => ?_⟩
    · rw [Tlb.lock_below h]; exact Tlb.entries_set_same _ _ _
    · rw [Tlb.lock_below h]
    · rw [Tlb.lock_below h]; exact Tlb.entries_set_other _ _ hk
  · have hptr : ¬ (31 : Nat) < (l.lock e).lockPtr.val := by have := (l.lock e).lockPtr.isLt; omega
    exact Bool.eq_false_iff.2 fun hx => hptr ((hlock.locked_iff 31).1 hx)

/-! ## Invalidation and unlock (rules R121, R122, R248, R252) -/

section
variable (l : Tlb) (mva : Word) (k : Fin 32)

theorem Tlb.invalidate_entries :
    l.invalidate.entries[k] = { l.entries[k] with valid := l.entries[k].valid && l.entries[k].locked } :=
  Tlb.mapEntries_entries _ l k

theorem Tlb.invalidateEntry_entries :
    (l.invalidateEntry mva).entries[k]
      = { l.entries[k] with valid := l.entries[k].valid && !l.entries[k].hits mva } :=
  Tlb.mapEntries_entries _ l k

theorem Tlb.unlock_entries : l.unlock.entries[k] = { l.entries[k] with locked := false } :=
  Tlb.mapEntries_entries _ l k

end

theorem TlbEntry.hits_of_invalid {e : TlbEntry} (h : e.valid = false) (mva : Word) : e.hits mva = false := by
  unfold TlbEntry.hits
  rw [h, Bool.false_and]

/-- An entry made invalid exactly where it translates an address. -/
theorem TlbEntry.invalidated_of_hit {e : TlbEntry} {mva : Word} (h : e.hits mva = true) (m : Word) :
    TlbEntry.hits { e with valid := e.valid && !e.hits mva } m = false :=
  TlbEntry.hits_of_invalid (by rw [h, Bool.not_true, Bool.and_false]) m

theorem TlbEntry.invalidated_of_miss {e : TlbEntry} {mva : Word} (h : e.hits mva = false) :
    { e with valid := e.valid && !e.hits mva } = e := by
  rw [h, Bool.not_false, Bool.and_true]

/-- An entry so invalidated does not translate the address. -/
theorem TlbEntry.invalidated_hits (e : TlbEntry) (mva : Word) :
    TlbEntry.hits { e with valid := e.valid && !e.hits mva } mva = false := by
  cases h : e.hits mva with
  | true => exact h ▸ TlbEntry.invalidated_of_hit h mva
  | false => simpa [TlbEntry.hits] using h

/-- Settles O59, entry by entry. -/
theorem invalidateKeepsLockedEntries : Obligations.InvalidateKeepsLockedEntries := by
  intro l mva
  refine ⟨fun k => ⟨fun h => ?_, fun h => ?_⟩, (Tlb.find_eq_none _ _).2 fun k => ?_,
    fun k => ⟨?_, fun h m => ?_, fun h => ?_, ?_⟩, rfl, rfl, rfl, rfl, rfl⟩
  · rw [Tlb.invalidate_entries, h, Bool.and_true]
  · rw [Tlb.invalidate_entries, h, Bool.and_false]
  · rw [Tlb.invalidateEntry_entries]; exact TlbEntry.invalidated_hits _ mva
  · rw [Tlb.invalidateEntry_entries]
  · rw [Tlb.invalidateEntry_entries]; exact TlbEntry.invalidated_of_hit h m
  · rw [Tlb.invalidateEntry_entries]; exact TlbEntry.invalidated_of_miss h
  · rw [Tlb.unlock_entries]

end Sys2Proof.Machine
end

section
/-!
The landing of coprocessor 15's effects, in program order and each on its own TLB (rules R114, R121 to R123, R254,
R256).
-/

namespace Sys2Proof.Machine

/-- The registers in effect once effects have landed are those that the effects give, oldest first. -/
theorem landPending_eff (n : Nat) {s t : State} (h : landPending n s = some t) :
    t.eff = (s.pending.take n).foldl Cp15Effect.registers s.eff := by
  induction n generalizing s with
  | zero => injection h with h; rw [h]; rfl
  | succ n ih =>
    unfold landPending at h
    split at h
    · next hp => injection h with h; rw [← h, hp]; rfl
    · next e rest hp =>
      split at h
      · cases h
      · next u hu =>
        obtain ⟨heff, hpend, _⟩ := Cp15Effect.apply_registers hu
        rw [ih h, heff, hpend, hp]
        rfl

/-- What landing leaves alone. -/
theorem LandStep.same {s t : State} (h : LandStep s t) :
    t.cp15 = s.cp15 ∧ t.gpr = s.gpr ∧ t.pc = s.pc ∧ t.cpsr = s.cpsr ∧ (∀ m, t.spsr m = s.spsr m)
      ∧ t.acc0 = s.acc0 ∧ t.mem = s.mem ∧ t.fsr = s.fsr ∧ t.far = s.far ∧ t.owed = s.owed := by
  unfold LandStep at h
  rw [h]
  exact ⟨rfl, rfl, rfl, rfl, fun m => by cases m <;> rfl, rfl, rfl, rfl, rfl, rfl⟩

section
variable {s : State} {f : Cp15Effect} {rest : List Cp15Effect} {side other : Side} {l : Tlb}

/-- One landing is the oldest effect's. -/
theorem landPending_one (h : s.pending = f :: rest) : landPending 1 s = f.apply { s with pending := rest } := by
  unfold landPending
  rw [h]
  cases hf : f.apply { s with pending := rest } with
  | none => simp only [hf]
  | some t => simp only [hf, landPending]

theorem State.tlb_setPending (s : State) (rest : List Cp15Effect) (side : Side) :
    ({ s with pending := rest } : State).tlb side = s.tlb side := by
  cases side <;> rfl

/-- The oldest effect gives its TLB and leaves the other one alone. -/
theorem lands_on_tlb (hp : s.pending = f :: rest) (hn : side ≠ other)
    (hf : f.apply { s with pending := rest } = some (State.setTlb { s with pending := rest } side l)) :
    ∃ t, landPending 1 s = some t ∧ t.tlb side = l ∧ t.tlb other = s.tlb other :=
  ⟨_, (landPending_one hp).trans hf, State.tlb_setTlb_same _ side l,
    (State.tlb_setTlb_other _ l hn).trans (State.tlb_setPending s rest other)⟩

end

section
variable {s : State} {side : Side} {mva : Word} {e : TlbEntry}

/-- A lock whose translation is not resident places it. -/
theorem apply_lock_absent (h : (s.tlb side).find mva = none) :
    (Cp15Effect.lock side mva e).apply s = some (s.setTlb side ((s.tlb side).lock e)) :=
  if_neg (by rw [h]; decide)

/-- A lock whose translation is resident has no meaning (rule R123). -/
theorem apply_lock_resident (h : (s.tlb side).find mva ≠ none) : (Cp15Effect.lock side mva e).apply s = none :=
  if_pos (Option.isSome_iff_ne_none.2 h)

/-- The translation of a locked cache line is placed where it is not resident (log 14). -/
theorem apply_fill_absent (h : (s.tlb side).find mva = none) :
    (Cp15Effect.fill side mva e).apply s = some (s.setTlb side ((s.tlb side).fill e)) :=
  congrArg some (if_neg (by rw [h]; decide))

theorem apply_fill_resident (h : (s.tlb side).find mva ≠ none) : (Cp15Effect.fill side mva e).apply s = some s :=
  congrArg some (if_pos (Option.isSome_iff_ne_none.2 h))

end

/-- Settles O53: landing by induction on how many land, and the oldest effect by what it is. -/
theorem landsInProgramOrder : Obligations.LandsInProgramOrder := by
  refine ⟨fun n s t h => ⟨landPending_pending n h, landPending_eff n h, (landPending_step n h).same⟩,
    fun s f rest side other mva e l hp hn => ⟨fun h => ?_, fun h => ?_, fun h hres => ?_⟩⟩
  · have htlb : State.tlb { s with pending := rest } side = s.tlb side := s.tlb_setPending rest side
    rcases h with ⟨rfl, rfl⟩ | ⟨rfl, rfl⟩ | ⟨rfl, rfl, hf⟩ | ⟨rfl, rfl, hf⟩ | ⟨rfl, rfl, hf⟩ | ⟨rfl, rfl⟩
    · exact lands_on_tlb hp hn (by rw [← htlb]; rfl)
    · exact lands_on_tlb hp hn (by rw [← htlb]; rfl)
    · exact lands_on_tlb hp hn (by rw [← htlb] at hf ⊢; exact apply_lock_absent hf)
    · exact lands_on_tlb hp hn (by rw [← htlb] at hf ⊢; exact apply_fill_absent hf)
    · rw [← htlb] at hf
      exact ⟨_, (landPending_one hp).trans (apply_fill_resident hf), htlb, s.tlb_setPending rest other⟩
    · exact lands_on_tlb hp hn (by rw [← htlb]; rfl)
  · subst h
    exact ⟨_, landPending_one hp, rfl, rfl⟩
  · subst h
    rw [← s.tlb_setPending rest side] at hres
    exact (landPending_one hp).trans (apply_lock_resident hres)

end Sys2Proof.Machine
end

section
/-!
Precise data aborts, and the functions of coprocessor 15 that take them: the lock abort of translate-and-lock and of the
lock of an instruction cache line (rules R124, R131, R249 to R251, R253, R344 to R348).
-/

namespace Sys2Proof.Machine

/-! ## Taking a precise data abort (rules R344 to R348) -/

/-- Taking an exception does not speak of the FSR and the FAR. -/
theorem Entered.faultRegisters {k : Exception} {link : Word} {s t : State} (h : Entered k link s t) (fsr far : Word) :
    Entered k link s { t with fsr := fsr, far := far } :=
  ⟨h.link, h.registers, h.saved, h.otherSaved, h.mode, h.arm, h.irqDisabled, h.fiqDisabled, h.status, h.pc, h.pastTop,
    h.acc0, h.cp15, h.eff, h.dcacheLock, h.pending, h.cpwait, h.itlb,
    ⟨h.data.memory, h.data.dtlb, h.data.owed, h.data.stored, h.data.dirty, h.data.subWord⟩, h.env, h.tick⟩

theorem State.takeDataAbort_entered (s : State) (a : DataAbort) (va : Word) :
    Entered .dataAbort (s.pc + 8) s (s.takeDataAbort a va) :=
  (s.takeException_entered .dataAbort (s.pc + 8)).faultRegisters _ _

theorem State.takeDataAbort_status (s : State) (a : DataAbort) (va : Word) :
    fsrStatus (s.takeDataAbort a va).fsr = a.status s.tick :=
  fsrStatus_abortFsr _ _ _

/-- A precise data abort other than a lock abort reports its address. -/
theorem State.takeDataAbort_aborted (s : State) {a : DataAbort} (h : a ≠ .lock) (va : Word) :
    DataAborted (a.status s.tick) a.domain va s (s.takeDataAbort a va) where
  entered := s.takeDataAbort_entered a va
  status := s.takeDataAbort_status a va
  domain d hd := by
    show fsrDomain (abortFsr _ a.domain _) = d
    rw [hd]
    exact fsrDomain_abortFsr _ d _
  far := if_neg h

/-! ## The walk and the checks of a lock function (rules R124, R346) -/

section
variable {s : State} {va : Word} {e : TlbEntry}

/-- The translation that the walk of a lock function gives, on the registers in program order. -/
abbrev State.lockWalk (s : State) (va : Word) : Except MmuFault TlbEntry :=
  walk s.mem s.now.dataWalkAbort s.cp15.auxControl s.cp15.ttb (remap s.cp15.pid va)

/-- The check of an entry for a lock function, a read in a privileged mode. -/
abbrev State.lockCheck (s : State) (va : Word) (e : TlbEntry) : Check :=
  checkAccess s.cp15.dacr s.cp15.control e (remap s.cp15.pid va) true false

theorem checkForLock_pass (hp : s.privileged = true) (hc : s.lockCheck va e = .pass) : s.checkForLock va e = .ok e := by
  unfold State.lockCheck at hc
  unfold State.checkForLock
  rw [hp, hc]

theorem checkForLock_fault (hp : s.privileged = true) {f : MmuFault} (hc : s.lockCheck va e = .fault f) :
    s.checkForLock va e = .abort .lock va := by
  unfold State.lockCheck at hc
  unfold State.checkForLock
  rw [hp, hc]

theorem checkForLock_refused (hp : s.privileged = true) {r : Refusal} (hc : s.lockCheck va e = .refused r) :
    s.checkForLock va e = .refused r := by
  unfold State.lockCheck at hc
  unfold State.checkForLock
  rw [hp, hc]

theorem walkForLock_ok (hw : s.lockWalk va = .ok e) : s.walkForLock va = s.checkForLock va e := by
  unfold State.lockWalk at hw
  unfold State.walkForLock
  rw [hw]

theorem walkForLock_error {f : MmuFault} (hw : s.lockWalk va = .error f) : s.walkForLock va = .abort .lock va := by
  unfold State.lockWalk at hw
  unfold State.walkForLock
  rw [hw]

/-- A fault of the walk or of the check is the lock abort. -/
theorem walkForLock_abort (hp : s.privileged = true)
    (h : (∃ f, s.lockWalk va = .error f) ∨ ∃ e f, s.lockWalk va = .ok e ∧ s.lockCheck va e = .fault f) :
    s.walkForLock va = .abort .lock va := by
  rcases h with ⟨f, hw⟩ | ⟨e, f, hw, hc⟩
  · exact walkForLock_error hw
  · exact (walkForLock_ok hw).trans (checkForLock_fault hp hc)

end

/-! ## MCR to a lock function (rules R249 to R251, R253) -/

section
variable {s : State} {va v : Word} {c : Cond} {crn crm : BitVec 4} {op2 : BitVec 3} {rd : Reg} {side : Side}

/-- An MCR whose function aborts takes the lock abort. -/
theorem exec_mcr_lockAbort (hc : conditionPassed c s = true) (hp : s.privileged = true) (hr : rd ≠ Reg.pc)
    (hw : s.writeCp15 crn crm op2 (s.reg rd) = .abort .lock va) :
    ∃ t, exec (.mcr c crn rd op2 crm) s = .next t ∧ Entered .dataAbort (s.pc + 8) s t ∧ fsrStatus t.fsr = 0b10100 := by
  rw [exec_mcr hc hp hr, hw]
  exact ⟨_, rfl, s.takeDataAbort_entered .lock va, s.takeDataAbort_status .lock va⟩

/-- The two translate-and-lock functions (rules R249, R250). -/
theorem writeCp15_translateAndLock (h : (side = .instruction ∧ crm = 4) ∨ (side = .data ∧ crm = 8)) :
    s.writeCp15 10 crm 0 v = s.translateAndLock side v := by
  rcases h with ⟨rfl, rfl⟩ | ⟨rfl, rfl⟩ <;> exact writeCp15_tlb (by decide) rfl

theorem translateAndLock_on (h : s.cp15.control.getLsbD 0 = true) :
    s.translateAndLock side va
      = (s.walkForLock va).bind fun e => .ok (s.issue (.lock side (remap s.cp15.pid va) e)) :=
  if_pos h

theorem translateAndLock_off (h : s.cp15.control.getLsbD 0 = false) :
    s.translateAndLock side va = .refused .lockMmuOff :=
  if_neg (Bool.eq_false_iff.1 h)

end

/-- Settles O50: what the walk and the checks give, with the MMU on, and the MMU off. -/
theorem translateAndLockIssuesOrAborts : Obligations.TranslateAndLockIssuesOrAborts := by
  intro c t crm rd s mva ht hc hp hr hm
  subst hm
  have hlock := writeCp15_translateAndLock (s := s) (v := s.reg rd) ht
  refine ⟨fun e hon hw hk => ?_, fun hon h => ?_, fun e r hon hw hk => ?_, fun hoff => ?_⟩
  · have hissue : s.translateAndLock t (s.reg rd) = .ok (s.issue (.lock t (remap s.cp15.pid (s.reg rd)) e)) := by
      rw [translateAndLock_on hon, walkForLock_ok hw, checkForLock_pass hp hk]
      rfl
    obtain ⟨u, hx, rfl, ha, hf⟩ := exec_mcr_ok hc hp hr (hlock.trans hissue)
    exact ⟨_, hx, rfl, rfl, ⟨rfl, rfl⟩, rfl, ha, hf⟩
  · refine exec_mcr_lockAbort (va := s.reg rd) hc hp hr (hlock.trans ?_)
    rw [translateAndLock_on hon, walkForLock_abort hp h]
    rfl
  · refine exec_mcr_refused hc hp hr (hlock.trans ?_)
    rw [translateAndLock_on hon, walkForLock_ok hw, checkForLock_refused hp hk]
    rfl
  · exact exec_mcr_refused hc hp hr (hlock.trans (translateAndLock_off hoff))

/-! ## The cache functions (rules R131, R253) -/

section
variable {s u : State} {va v : Word} {e : TlbEntry} {crn crm : BitVec 4} {op2 : BitVec 3} {l : Tlb}

theorem writeCp15_cache {r : Res State} (h1 : (crn, crm, op2) ∉ storageTriples) (h2 : (crn, crm, op2) ∉ tlbTriples)
    (h : s.cacheFunction crn crm op2 v = some r) : s.writeCp15 crn crm op2 v = r := by
  unfold State.writeCp15
  rw [writeCp15Register_none h1, tlbFunction_none h2, h]

/-- The functions that lose no data change nothing. -/
theorem writeCp15_lossless
    (h : (crn, crm, op2) ∈ [((7 : BitVec 4), (5 : BitVec 4), (0 : BitVec 3)), (7, 5, 1), (7, 5, 6), (7, 10, 1),
      (7, 10, 4), (9, 1, 1), (9, 2, 1)]) : s.writeCp15 crn crm op2 v = .ok s := by
  simp only [List.mem_cons, List.not_mem_nil, or_false, Prod.mk.injEq] at h
  rcases h with ⟨rfl, rfl, rfl⟩ | ⟨rfl, rfl, rfl⟩ | ⟨rfl, rfl, rfl⟩ | ⟨rfl, rfl, rfl⟩ | ⟨rfl, rfl, rfl⟩
    | ⟨rfl, rfl, rfl⟩ | ⟨rfl, rfl, rfl⟩ <;>
  exact writeCp15_cache (by decide) (by decide) rfl

/-- The functions that could discard a line not yet written to memory. -/
theorem writeCp15_discarding
    (h : (crn, crm, op2) ∈ [((7 : BitVec 4), (7 : BitVec 4), (0 : BitVec 3)), (7, 6, 0), (7, 6, 1)]) :
    s.writeCp15 crn crm op2 v = if s.dirty then .refused .discardsDirtyData else .ok s := by
  simp only [List.mem_cons, List.not_mem_nil, or_false, Prod.mk.injEq] at h
  rcases h with ⟨rfl, rfl, rfl⟩ | ⟨rfl, rfl, rfl⟩ | ⟨rfl, rfl, rfl⟩ <;>
  exact writeCp15_cache (by decide) (by decide) rfl

/-! ## The lock of an instruction cache line (rules R131, R253, R346; log 14) -/

/-- With the MMU off, or an entry resident that the checks pass, the translation of a line changes nothing. -/
theorem translateLine_resident (hp : s.privileged = true)
    (h : s.cp15.control.getLsbD 0 = false ∨ ∃ e, l.find (remap s.cp15.pid va) = some e ∧ s.lockCheck va e = .pass) :
    s.translateLine va l = .ok s := by
  unfold State.translateLine
  cases hon : s.cp15.control.getLsbD 0 with
  | false => rfl
  | true =>
    rcases h with hoff | ⟨e, hf, hk⟩
    · rw [hon] at hoff; cases hoff
    · rw [if_pos rfl, hf]
      exact congrArg (Res.bind · fun _ => .ok s) (checkForLock_pass hp hk)

section
variable (hp : s.privileged = true) (hon : s.cp15.control.getLsbD 0 = true)
include hp hon

/-- A walk whose translation the checks pass issues its fill. -/
theorem translateLine_fills (hf : l.find (remap s.cp15.pid va) = none) (hw : s.lockWalk va = .ok e)
    (hk : s.lockCheck va e = .pass) :
    s.translateLine va l = .ok (s.issue (.fill .instruction (remap s.cp15.pid va) e)) := by
  unfold State.translateLine
  rw [if_pos hon, hf]
  simp only [walkForLock_ok hw, checkForLock_pass hp hk]
  rfl

/-- A fault of the checks of a resident entry, of the walk, or of the checks after it is the lock abort. -/
theorem translateLine_abort
    (h : (∃ e f, l.find (remap s.cp15.pid va) = some e ∧ s.lockCheck va e = .fault f)
      ∨ l.find (remap s.cp15.pid va) = none
        ∧ ((∃ f, s.lockWalk va = .error f) ∨ ∃ e f, s.lockWalk va = .ok e ∧ s.lockCheck va e = .fault f)) :
    s.translateLine va l = .abort .lock va := by
  unfold State.translateLine
  rw [if_pos hon]
  rcases h with ⟨e, f, hf, hk⟩ | ⟨hf, hw⟩
  · simp only [hf, checkForLock_fault hp hk]
    rfl
  · simp only [hf, walkForLock_abort hp hw]
    rfl

end

/-- The lock of a line, after every function issued before it. -/
theorem writeCp15_lockCacheLine (h : landPending s.pending.length s = some u) :
    s.writeCp15 9 1 0 v
      = (s.translateLine v u.itlb).bind fun t => if s.now.dataError then .abort .lock v else .ok t := by
  have hl : s.tlbInOrder .instruction = some u.itlb := by
    unfold State.tlbInOrder
    rw [h]
    rfl
  refine (writeCp15_cache (by decide) (by decide) rfl : _ = s.lockCacheLine v).trans ?_
  unfold State.lockCacheLine
  rw [hl]

/-- A line that translates without an external error. -/
theorem writeCp15_lockCacheLine_ok {t : State} (h : landPending s.pending.length s = some u)
    (he : s.now.dataError = false) (ht : s.translateLine v u.itlb = .ok t) : s.writeCp15 9 1 0 v = .ok t := by
  rw [writeCp15_lockCacheLine h, ht, he]
  rfl

/-- A line that does not translate, or that suffers an external error. -/
theorem writeCp15_lockCacheLine_abort (h : landPending s.pending.length s = some u)
    (ht : s.translateLine v u.itlb = .abort .lock v
      ∨ s.now.dataError = true ∧ ∃ t, s.translateLine v u.itlb = .ok t) :
    s.writeCp15 9 1 0 v = .abort .lock v := by
  rw [writeCp15_lockCacheLine h]
  rcases ht with ht | ⟨he, t, ht⟩
  · rw [ht]; rfl
  · rw [ht, he]; rfl

end

/-- Settles O51: each function by its triple, and the lock of a line by what its translation gives. -/
theorem mcrCacheFunctionsAct : Obligations.McrCacheFunctionsAct := by
  intro c crn crm op2 rd s hc hp hr
  have unchanged : ∀ {crn crm op2}, s.writeCp15 crn crm op2 (s.reg rd) = .ok s →
      ∃ t, exec (.mcr c crn rd op2 crm) s = .next t ∧ t.cp15 = s.cp15 ∧ t.pending = s.pending
        ∧ FaultRegistersKept s t ∧ t.dcacheLock = s.dcacheLock ∧ Advanced s t ∧ ControlFrame s t := by
    intro crn crm op2 hw
    obtain ⟨t, hx, rfl, ha, hf⟩ := exec_mcr_ok hc hp hr hw
    exact ⟨_, hx, rfl, rfl, ⟨rfl, rfl⟩, rfl, ha, hf⟩
  refine ⟨fun h => unchanged ?_, fun hd h => ?_, ?_, fun u mva checked hl hm hk => ?_⟩
  · rcases h with h | ⟨hd, h⟩
    · exact writeCp15_lossless h
    · rw [writeCp15_discarding h, hd]; rfl
  · refine exec_mcr_refused hc hp hr ?_
    rw [writeCp15_discarding h, hd]
    rfl
  · exact exec_mcr_refused hc hp hr (writeCp15_cache (by decide) (by decide) rfl)
  · subst hm hk
    refine ⟨fun he h => unchanged (writeCp15_lockCacheLine_ok hl he ?_), fun e he hon hf hw hk => ?_, fun h =>
      exec_mcr_lockAbort (va := s.reg rd) hc hp hr (writeCp15_lockCacheLine_abort hl ?_)⟩
    · exact translateLine_resident hp h
    · obtain ⟨t, hx, rfl, ha, hf⟩ := exec_mcr_ok hc hp hr
        (writeCp15_lockCacheLine_ok hl he (translateLine_fills hp hon hf hw hk))
      exact ⟨_, hx, rfl, rfl, ⟨rfl, rfl⟩, rfl, ha, hf⟩
    · rcases h with ⟨he, hoff⟩ | ⟨hon, ⟨e, hf, ⟨f, hk⟩ | ⟨he, hk⟩⟩ | ⟨hf, hw | ⟨e, hw, ⟨f, hk⟩ | ⟨he, hk⟩⟩⟩⟩
      · exact .inr ⟨he, _, translateLine_resident hp (.inl hoff)⟩
      · exact .inl (translateLine_abort hp hon (.inl ⟨e, f, hf, hk⟩))
      · exact .inr ⟨he, _, translateLine_resident hp (.inr ⟨e, hf, hk⟩)⟩
      · exact .inl (translateLine_abort hp hon (.inr ⟨hf, .inl hw⟩))
      · exact .inl (translateLine_abort hp hon (.inr ⟨hf, .inr ⟨e, f, hw, hk⟩⟩))
      · exact .inr ⟨he, _, translateLine_fills hp hon hf hw hk⟩

end Sys2Proof.Machine
end

section
/-!
Misaligned accesses: the alignment abort with checking on, and the refusal of those without a meaning (rules R75, R77,
R78, R193, R345).
-/

namespace Sys2Proof.Machine

/-! ## The alignment check (rules R75, R77, R78) -/

section
variable {w : Width} {va : Word} {s : State}

/-- A misaligned access aborts with checking on; a doubleword at bits 2:0 = `0b100` always. -/
theorem alignment_abort
    (h : (s.alignmentChecked = true ∧ va.toNat % w.bytes ≠ 0) ∨ (w = .double ∧ va.toNat % 8 = 4)) :
    alignment w va s = .abort := by
  unfold alignment
  rcases h with ⟨hc, hm⟩ | ⟨rfl, h4⟩
  · rw [if_neg hm, if_pos hc]
  · have hm : va.toNat % Width.bytes .double ≠ 0 := by
      show va.toNat % 8 ≠ 0
      omega
    rw [if_neg hm, if_pos (c := Width.double = .double ∧ _) ⟨rfl, h4⟩, ite_self]

/-- With checking off any other misaligned access has no meaning. -/
theorem alignment_misaligned (hc : s.alignmentChecked = false) (hm : va.toNat % w.bytes ≠ 0)
    (h4 : ¬ (w = .double ∧ va.toNat % 8 = 4)) : alignment w va s = .misaligned := by
  unfold alignment
  rw [if_neg hm, if_neg (Bool.eq_false_iff.1 hc), if_neg h4]

end

/-! ## Accesses that are not aligned -/

/-- What an access that is not aligned answers, before it is translated. -/
def unaligned {α : Type} (w : Width) (va : Word) (s : State) : Res α :=
  if alignment w va s = .abort then .abort .alignment va else misalignedAccess va w.bytes

/-- An access that asks for alignment first: the shape of every load, store and swap with a width. -/
def whenAligned {α : Type} (w : Width) (va : Word) (s : State) (x : Res α) : Res α :=
  match alignment w va s with
  | .abort => .abort .alignment va
  | .misaligned => misalignedAccess va w.bytes
  | .aligned => x

section
variable {α : Type} {w : Width} {va : Word} {s : State}

theorem whenAligned_unaligned (h : alignment w va s ≠ .aligned) (x : Res α) :
    whenAligned w va s x = unaligned w va s := by
  unfold whenAligned unaligned
  cases hal : alignment w va s with
  | aligned => exact absurd hal h
  | misaligned => rfl
  | abort => rfl

/-- An access that is not aligned aborts, faults or is refused. -/
theorem unaligned_cases (w : Width) (va : Word) (s : State) :
    (∀ α, unaligned (α := α) w va s = .abort .alignment va)
      ∨ (∀ α, unaligned (α := α) w va s = .fault .accessWraps)
      ∨ ∀ α, unaligned (α := α) w va s = .refused .misalignedAccess := by
  unfold unaligned misalignedAccess
  split
  · exact .inl fun _ => rfl
  · split
    · exact .inr (.inl fun _ => rfl)
    · exact .inr (.inr fun _ => rfl)

/-- Whatever follows an access that is not aligned is not done. -/
theorem finish_unaligned {x : Res α} (hx : x = unaligned w va s) (f : α → Res State) :
    (x.bind f).finish s = (unaligned w va s).finish s := by
  rw [hx]
  rcases unaligned_cases w va s with h | h | h <;> rw [h, h] <;> rfl

/-- LDR at an address that is not aligned. -/
theorem loadRegister_unaligned {rn rd : Reg} {a : Address} (h : alignment .word a.address s ≠ .aligned) :
    s.loadRegister rn rd a = (unaligned .word a.address s).finish s := by
  have hx : loadWord a.address s = unaligned .word a.address s := whenAligned_unaligned h _
  unfold State.loadRegister
  rw [hx]
  rcases unaligned_cases .word a.address s with h | h | h <;> rw [h, h] <;> rfl

/-- A load, store or swap whose address is not aligned answers before it is translated. -/
theorem exec_unaligned {i : Instr} {c : Cond} {d : DataAccess} (hd : dataAccessOf s i = some d)
    (hw : d.width = some w) (hi : i.condition = some c) (hc : conditionPassed c s = true)
    (hp : i.predictable = true) (h : alignment w d.address s ≠ .aligned) :
    exec i s = (unaligned w d.address s).finish s := by
  have body : ∀ {b : Answer}, b = (unaligned w d.address s).finish s →
      conditional c s (predictably i b) = (unaligned w d.address s).finish s := fun hb => by
    rw [conditional_true hc, predictably_true hp, hb]
  cases i <;> cases hd <;> cases hi <;> cases hw
  case ldrImm => exact body (loadRegister_unaligned h)
  case ldrReg => exact body (loadRegister_unaligned h)
  all_goals exact body (finish_unaligned (whenAligned_unaligned h _) _)

end

/-- Settles O40: the check aborts, before anything else is done. -/
theorem alignmentAborts : Obligations.AlignmentAborts := by
  intro i c s d w hd hw hi hc hp h
  have hal : alignment w d.address s = .abort := alignment_abort h
  refine ⟨s.takeDataAbort .alignment d.address, Config.alignmentCodeBit s.tick, ?_,
    s.takeDataAbort_aborted (a := .alignment) nofun d.address⟩
  rw [exec_unaligned hd hw hi hc hp (by rw [hal]; nofun), unaligned, if_pos hal]
  rfl

/-- Settles O42: the check finds no meaning, before the access is translated. -/
theorem misalignedAccessRefused : Obligations.MisalignedAccessRefused := by
  intro i c s d w hd hw hi hc hp ha hm h4
  have hal : alignment w d.address s = .misaligned := alignment_misaligned ha hm h4
  have hx : exec i s = (misalignedAccess d.address w.bytes : Res State).finish s := by
    rw [exec_unaligned hd hw hi hc hp (by rw [hal]; nofun), unaligned, if_neg (by rw [hal]; nofun)]
  rw [hx]
  unfold misalignedAccess
  exact ⟨fun h => by rw [if_pos h]; rfl, fun h => by rw [if_neg (by omega)]; rfl⟩

end Sys2Proof.Machine
end

section
/-!
Loads, stores and swaps that complete: LDRSH, LDRD, STRD, SWP, SWPB (rules R72, R149, R191, R192, R287, R296, R297).
-/

namespace Sys2Proof.Machine

/-! ## Halves and bytes of the word in memory (rule R72) -/

section
variable (m : List Host.Cell) (a : Nat)

theorem readHalf_bit {i : Nat} (hi : i < 16) :
    (Memory.readHalf m a).getLsbD i = (Memory.read m (a + i / 8)).getLsbD (i % 8) := by
  rw [Memory.readHalf, BitVec.getLsbD_append]
  by_cases h : i < 8
  · rw [if_pos h, Nat.div_eq_of_lt h, Nat.mod_eq_of_lt h, Nat.add_zero]
  · rw [if_neg h, show i / 8 = 1 by omega, show i % 8 = i - 8 by omega]

/-- Each byte of the word in memory is the one at its address. -/
theorem readWord_bit {i : Nat} (hi : i < 32) :
    (Memory.readWord m a).getLsbD i = (Memory.read m (a + i / 8)).getLsbD (i % 8) := by
  have hhalves : Memory.readWord m a
      = (Memory.read m (a + 3) ++ Memory.read m (a + 2)) ++ Memory.read m (a + 1) ++ Memory.read m a := rfl
  rw [hhalves, BitVec.getLsbD_append, BitVec.getLsbD_append, BitVec.getLsbD_append]
  rcases (by omega : i / 8 = 0 ∨ i / 8 = 1 ∨ i / 8 = 2 ∨ i / 8 = 3) with h | h | h | h
  · rw [if_pos (by omega), h, show i % 8 = i by omega, Nat.add_zero]
  · rw [if_neg (by omega), if_pos (by omega), h, show i % 8 = i - 8 by omega]
  · rw [if_neg (by omega), if_neg (by omega), if_pos (by omega), h, show i % 8 = i - 8 - 8 by omega]
  · rw [if_neg (by omega), if_neg (by omega), if_neg (by omega), h, show i % 8 = i - 8 - 8 - 8 by omega]

theorem readWord_byte {k : Nat} (hk : k < 4) :
    (Memory.readWord m a).extractLsb' (8 * k) 8 = Memory.read m (a + k) := by
  apply BitVec.eq_of_getLsbD_eq
  intro i hi
  rw [BitVec.getLsbD_extractLsb', readWord_bit m a (by omega), show (8 * k + i) / 8 = k by omega,
    show (8 * k + i) % 8 = i by omega]
  simp [hi]

/-- The half `k` of the word in memory is the one `2 * k` addresses on. -/
theorem readWord_half {k : Nat} (hk : k < 2) :
    (Memory.readWord m a).extractLsb' (16 * k) 16 = Memory.readHalf m (a + 2 * k) := by
  apply BitVec.eq_of_getLsbD_eq
  intro i hi
  rw [BitVec.getLsbD_extractLsb', readWord_bit m a (by omega), readHalf_bit _ _ hi,
    show a + (16 * k + i) / 8 = a + 2 * k + i / 8 by omega, show (16 * k + i) % 8 = i % 8 by omega]
  simp [hi]

end

/-! ## Lanes (rule R72) -/

section
variable {s : State} {pa : Word}

/-- The half of the aligned word that the byte order selects. -/
theorem halfLane_eq (h : pa.toNat % 2 = 0) :
    s.halfLane pa = pa.toNat / 4 * 4 + 2 * (if s.bigEndian = pa.getLsbD 1 then 0 else 1) := by
  have hbit : pa.getLsbD 1 = decide (pa.toNat / 2 % 2 = 1) := by
    rw [BitVec.getLsbD, Nat.testBit_eq_decide_div_mod_eq]
  unfold State.halfLane
  rw [hbit, xor_two]
  cases s.bigEndian <;> by_cases hb : pa.toNat / 2 % 2 = 1 <;> simp [hb] <;> omega

/-- The byte of the aligned word that the byte order selects. -/
theorem byteLane_eq :
    s.byteLane pa = pa.toNat / 4 * 4 + (if s.bigEndian = true then 3 - pa.toNat % 4 else pa.toNat % 4) := by
  unfold State.byteLane
  split
  · exact xor_three pa
  · omega

end

/-! ## Translated accesses -/

section
variable {s u x : State} {a : Access} {write : Bool} {far va : Word} {rs : List Reg} {first n : Nat}

/-- A translated address keeps the alignment of a halfword. -/
theorem dataTranslate_even (h : dataTranslate write far va s = .ok a) (hal : va.toNat % 2 = 0) :
    a.pa.toNat % 2 = 0 := by
  have := dataTranslate_mod_four h
  omega

theorem dataTranslate_bigEndian (h : dataTranslate write far va s = .ok a) : a.state.bigEndian = s.bigEndian := by
  unfold State.bigEndian
  rw [(dataTranslate_keeps h).step.eff_eq]

theorem dataTranslate_quiet (h : dataTranslate write far va s = .ok a) (q : s.NoDataError) : a.state.NoDataError :=
  q.congr (dataTranslate_keeps h).step.env_eq

/-- A frame names the data TLB of the translated access. -/
theorem AccessFrame.of_dtlb {t : State} (h : AccessFrame rs first n u s t) (hd : u.dtlb = x.dtlb) :
    AccessFrame rs first n x s t :=
  ⟨⟨h.registers, h.acc0, h.system, h.dtlb.trans hd, h.memory⟩, h.owed⟩

/-- The end of an instruction that has accessed memory and written registers. -/
theorem RegisterStep.access_end (hx : RegisterStep rs u x) (hl : DataStep s u) (ho : u.owed = s.owed)
    (hm : MemoryKeptBut first n s u) :
    x.advance.cpsr = s.cpsr ∧ Advanced s x.advance ∧ AccessFrame rs first n u s x.advance := by
  have hpc : x.pc = s.pc := by rw [hx.only]; exact hl.pc_eq
  have hregs : RegistersKeptBut rs s x.advance := fun k hk =>
    (hx.kept k (by rw [hl.mode_eq]; exact hk)).trans (by rw [hl.gpr_eq])
  refine ⟨hx.cpsr_eq.trans hl.cpsr_eq, ⟨by rw [State.advance_pc, hpc], by rw [State.advance_pastTop, hpc]⟩,
    .of_step hl ho hregs (fun y hy => ?_) ⟨x.gpr, u.cpsr, x.pc + 4, decide (4294967292 ≤ x.pc.toNat), ?_⟩⟩
  · rw [State.advance_mem, hx.only]; exact hm y hy
  · rw [State.advance, hx.only]

end

/-! ## LDRSH (rule R287) -/

section
variable {s : State} {a : Access} {ea : Address} {rn rd : Reg}

/-- The half of the word in memory that the byte order selects. -/
theorem selectedHalf (he : a.pa.toNat % 2 = 0) {w : Word} (hw : w = Memory.readWord s.mem (a.pa.toNat / 4 * 4)) :
    (s.bigEndian = a.pa.getLsbD 1 → Memory.readHalf s.mem (s.halfLane a.pa) = w.extractLsb' 0 16)
      ∧ (s.bigEndian ≠ a.pa.getLsbD 1 → Memory.readHalf s.mem (s.halfLane a.pa) = w.extractLsb' 16 16) := by
  subst hw
  rw [halfLane_eq he]
  refine ⟨fun h => ?_, fun h => ?_⟩
  · rw [if_pos h]; exact (readWord_half _ _ (k := 0) (by decide)).symm
  · rw [if_neg h]; exact (readWord_half _ _ (k := 1) (by decide)).symm

/-- LDRSH at an address, in a quiet environment. -/
theorem loadHalfRegister_completes (hal : ea.address.toNat % 2 = 0) (q : s.NoDataError)
    (ht : dataTranslate false ea.address ea.address s = .ok a) (hr : rd ≠ Reg.pc)
    (hw : ea.writeback ≠ none → rn ≠ Reg.pc ∧ rn ≠ rd) :
    ∃ t, s.loadHalfRegister rn rd ea = .next t
      ∧ t.reg rd = (Memory.readHalf s.mem (s.halfLane a.pa)).signExtend 32
      ∧ BaseAfter rn ea t ∧ t.cpsr = s.cpsr ∧ Advanced s t
      ∧ AccessFrame (writtenWith rn ea [rd]) 0 0 a.state s t ∧ t.stored = s.stored ∧ t.dirty = s.dirty
      ∧ t.subWord = true := by
  obtain ⟨hl, hm, ho, hst, hd, _⟩ := dataTranslate_like ht
  have qa : a.state.NoDataError := dataTranslate_quiet ht q
  have hlane : a.state.halfLane a.pa = s.halfLane a.pa := by
    unfold State.halfLane
    rw [dataTranslate_bigEndian ht]
  obtain ⟨t, hx, hv, hb, hc, hadv, hf, hst', hd', hsub⟩ :=
    load_spec (s := s) (u := a.state.noteSubWord) (rn := rn) (a := ea)
      (v := (Memory.readHalf s.mem (s.halfLane a.pa)).signExtend 32) (hl.trans rfl) ho hm hw hr
  refine ⟨t, ?_, hv, hb, hc, hadv, hf.of_dtlb rfl, hst'.trans hst, hd'.trans hd, hsub⟩
  unfold State.loadHalfRegister
  rw [loadSignedHalf_eq hal ht, State.owe_quiet qa, State.loaded_quiet qa, hm, hlane, ← hx]
  rfl

end

/-- Settles O35: the half loaded, and the half of the aligned word that the byte order selects. -/
theorem ldrshLoadsSignedHalf : Obligations.LdrshLoadsSignedHalf := by
  intro i c m u rn rd ea s a w hi hc hp hal q ht hw
  have hx : exec i s = s.loadHalfRegister rn rd ea ∧ rd ≠ Reg.pc
      ∧ (ea.writeback ≠ none → rn ≠ Reg.pc ∧ rn ≠ rd) := by
    rcases hi with ⟨off, rfl, rfl⟩ | ⟨rm, rfl, rfl⟩ <;> obtain ⟨hr, hb⟩ := Bool.and_eq_true_iff.1 hp <;>
    exact ⟨(conditional_true hc).trans (predictably_true hp), bne_iff_ne.1 hr, basePredictable_writeback hb⟩
  obtain ⟨hx, hr, hwb⟩ := hx
  obtain ⟨t, ht', hv, rest⟩ := loadHalfRegister_completes hal q ht hr hwb
  obtain ⟨hlow, hhigh⟩ := selectedHalf (dataTranslate_even ht hal) hw
  have hint : (t.reg rd).toInt = (Memory.readHalf s.mem (s.halfLane a.pa)).toInt := by
    rw [hv, BitVec.toInt_signExtend_of_le (by decide)]
  exact ⟨t, hx.trans ht', fun h => by rw [hint, hlow h], fun h => by rw [hint, hhigh h], rest⟩

/-! ## LDRD and STRD (rules R191, R192) -/

section
variable {s : State} {a : Access} {ea : Address} {rn rd : Reg}

/-- LDRD at an address, in a quiet environment. -/
theorem loadPair_completes (hal : ea.address.toNat % 8 = 0) (q : s.NoDataError)
    (ht : dataTranslate false ea.address ea.address s = .ok a) (hr : rd ≠ Reg.pc) (hr1 : rd + 1 ≠ Reg.pc)
    (hw : ea.writeback ≠ none → rn ≠ Reg.pc ∧ rn ≠ rd ∧ rn ≠ rd + 1) :
    ∃ t, s.loadPair rn rd ea = .next t ∧ t.reg rd = Memory.readWord s.mem a.pa.toNat
      ∧ t.reg (rd + 1) = Memory.readWord s.mem (a.pa.toNat + 4)
      ∧ BaseAfter rn ea t ∧ t.cpsr = s.cpsr ∧ Advanced s t
      ∧ AccessFrame (writtenWith rn ea [rd, rd + 1]) 0 0 a.state s t ∧ t.stored = s.stored ∧ t.dirty = s.dirty
      ∧ t.subWord = s.subWord := by
  obtain ⟨hl, hm, ho, hst, hd, hsub⟩ := dataTranslate_like ht
  have qa : a.state.NoDataError := dataTranslate_quiet ht q
  have hne : ∀ r : Reg, r ≠ r + 1 := by decide
  have hmem : ∀ r ∈ [rd, rd + 1], r ∈ writtenWith rn ea [rd, rd + 1] := fun r h => by
    unfold writtenWith
    split
    · exact h
    · exact List.mem_cons_of_mem rn h
  have hbase : ∀ v, ea.writeback = some v → rn ≠ Reg.pc ∧ rn ∈ writtenWith rn ea [rd, rd + 1] := fun v hv => by
    have hsome : ea.writeback ≠ none := by rw [hv]; nofun
    exact ⟨(hw hsome).1, by rw [writtenWith, if_neg hsome]; exact List.mem_cons_self⟩
  have hstep := (((RegisterStep.refl (writtenWith rn ea [rd, rd + 1]) a.state).setReg
    (v := Memory.readWord s.mem a.pa.toNat) hr (hmem _ (by simp))).setReg
    (v := Memory.readWord s.mem (a.pa.toNat + 4)) hr1 (hmem _ (by simp))).writeBack hbase
  obtain ⟨hc, hadv, hf⟩ := hstep.access_end hl ho (.of_mem (first := 0) (n := 0) hm)
  refine ⟨_, ?_, ?_, ?_, fun v hv => ?_, hc, hadv, hf, ?_, ?_, ?_⟩
  · unfold State.loadPair
    rw [loadDouble_eq hal ht, State.owe_quiet qa, State.loaded_quiet qa, State.loaded_quiet qa, hm,
      double_second ht hal]
    rfl
  · rw [State.reg_advance _ hr, reg_writeBack_other hr fun h => (hw h).2.1.symm, State.reg_setReg_other _ hr (hne rd),
      State.reg_setReg_same _ hr]
  · rw [State.reg_advance _ hr1, reg_writeBack_other hr1 fun h => (hw h).2.2.symm, State.reg_setReg_same _ hr1]
  · obtain ⟨hrn, _⟩ := hbase v hv
    rw [State.reg_advance _ hrn, reg_writeBack_same hrn hv]
  · simpa using hst
  · simpa using hd
  · simpa using hsub

/-- Two words stored one after the other, read back. -/
theorem readWord_writeWord_twice {m : List Host.Cell} (h : Memory.wf m = true) {p : Nat} (hp : p + 8 ≤ Memory.size)
    (v w : Word) :
    Memory.readWord (Memory.writeWord (Memory.writeWord m p v) (p + 4) w) p = v
      ∧ Memory.readWord (Memory.writeWord (Memory.writeWord m p v) (p + 4) w) (p + 4) = w := by
  have hfirst : Memory.wf (Memory.writeWord m p v) = true :=
    Memory.wf_writeBytes h (bytesOfWord v) (show p + 4 ≤ Memory.size by omega)
  refine ⟨?_, Memory.readWord_writeWord hfirst (by omega) w⟩
  refine (Memory.readWord_writeBytes_outside _ _ (by omega)).trans ?_
  exact Memory.readWord_writeWord h (by omega) v

/-- A word stored in a quiet environment. -/
theorem storeWord_mem_quiet {u : State} (q : u.NoDataError) (p : Policy) (pa v : Word) :
    (u.storeWord p pa v).mem = Memory.writeWord u.mem pa.toNat v :=
  State.storeBytes_mem_quiet q p pa.toNat (bytesOfWord v)

theorem storeWord_quiet {u : State} (q : u.NoDataError) (p : Policy) (pa v : Word) :
    (u.storeWord p pa v).NoDataError := q

/-- STRD at an address, in a quiet environment. -/
theorem storePair_completes (hal : ea.address.toNat % 8 = 0) (q : s.NoDataError) (hcan : s.MemoryCanonical)
    (ht : dataTranslate true ea.address ea.address s = .ok a) (hw : ea.writeback ≠ none → rn ≠ Reg.pc) :
    ∃ t, s.storePair rn rd ea = .next t ∧ Memory.readWord t.mem a.pa.toNat = s.reg rd
      ∧ Memory.readWord t.mem (a.pa.toNat + 4) = s.reg (rd + 1)
      ∧ BaseAfter rn ea t ∧ t.cpsr = s.cpsr ∧ Advanced s t
      ∧ AccessFrame (writtenWith rn ea []) a.pa.toNat 8 a.state s t ∧ t.subWord = s.subWord := by
  obtain ⟨_, hm, _, _, _, hsub⟩ := dataTranslate_like ht
  have qa : a.state.NoDataError := dataTranslate_quiet ht q
  have hsecond := double_second ht hal
  have hfits : a.pa.toNat + 8 ≤ Memory.size := by
    have := (a.pa + 4).isLt
    have := dataTranslate_mod_four ht
    unfold Memory.size
    omega
  have hdone := ((Accessing.start (first := a.pa.toNat) (n := 8) ht).storeBytes
    (bs := bytesOfWord (s.reg rd)) (Nat.le_refl _) (show a.pa.toNat + 4 ≤ a.pa.toNat + 8 by omega)).storeBytes
    (addr := (a.pa + 4).toNat) (bs := bytesOfWord (s.reg (rd + 1))) (by omega)
    (show (a.pa + 4).toNat + 4 ≤ a.pa.toNat + 8 by omega)
  obtain ⟨t, hx, hb, hc, hadv, hf, htm, hts⟩ := store_spec hdone.step hdone.owed hdone.memory hw
  have hmem : t.mem = Memory.writeWord (Memory.writeWord s.mem a.pa.toNat (s.reg rd)) (a.pa.toNat + 4)
      (s.reg (rd + 1)) := by
    rw [htm, ← hsecond, ← hm]
    exact (storeWord_mem_quiet (storeWord_quiet qa _ _ _) _ _ _).trans (by rw [storeWord_mem_quiet qa])
  obtain ⟨h1, h2⟩ := readWord_writeWord_twice hcan hfits (s.reg rd) (s.reg (rd + 1))
  refine ⟨t, ?_, by rw [hmem, h1], by rw [hmem, h2], hb, hc, hadv, hf.of_dtlb hdone.dtlb, hts.trans hsub⟩
  unfold State.storePair
  rw [storeDoubleAt_eq hal ht, State.owe_quiet (storeWord_quiet (storeWord_quiet qa _ _ _) _ _ _), ← hx]
  rfl

end

/-- Settles O36: the immediate and the register forms of each. -/
theorem ldrdAndStrdMoveTwoWords : Obligations.LdrdAndStrdMoveTwoWords := by
  refine ⟨fun i c m u rn rd ea s a hi hc hp hal q ht => ?_, fun i c m u rn rd ea s a hi hc hp hal q hcan ht => ?_⟩
  · rcases hi with ⟨off, rfl, rfl⟩ | ⟨rm, rfl, rfl⟩
    · obtain ⟨hr, hr1⟩ := doublePredictable_ne_pc hp
      exact checked_completes hc hp (loadPair_completes hal q ht hr hr1 fun hw => doublePredictable_writeback hp hw)
    · obtain ⟨hb, _⟩ := Bool.and_eq_true_iff.1 hp
      obtain ⟨hr, hr1⟩ := doublePredictable_ne_pc hb
      exact checked_completes hc hp (loadPair_completes hal q ht hr hr1 fun hw => doublePredictable_writeback hb hw)
  · rcases hi with ⟨off, rfl, rfl⟩ | ⟨rm, rfl, rfl⟩
    · exact checked_completes hc hp (storePair_completes hal q hcan ht fun hw => doublePredictable_base hp hw)
    · obtain ⟨hb, _⟩ := Bool.and_eq_true_iff.1 hp
      exact checked_completes hc hp (storePair_completes hal q hcan ht fun hw => doublePredictable_base hb hw)

/-! ## SWP and SWPB (rules R296, R297) -/

theorem swapBits_toNat (c : Cond) (rn rd rm : Reg) (op : BitVec 8) :
    (c.toBits ++ op ++ rn ++ rd ++ 0x09#8 ++ rm).toNat
      = c.toBits.toNat * 268435456 + op.toNat * 1048576 + rn.toNat * 65536 + rd.toNat * 4096 + 144 + rm.toNat := by
  simp only [append_toNat, BitVec.toNat_ofNat]
  omega

/-- The word of SWP, and with bit 22 set of SWPB. -/
theorem decodeWord_swap {c : Cond} {rn rd rm : Reg} {w : Word} (b : Bool)
    (h : w.toNat = c.toBits.toNat * 268435456 + (16 + 4 * b.toNat) * 1048576 + rn.toNat * 65536 + rd.toNat * 4096
      + 144 + rm.toNat) :
    decodeWord w = .ok (if b then .swpb c rn rd rm else .swp c rn rd rm) := by
  have hb := b.toNat_le
  have hn := rn.isLt
  have hd := rd.isLt
  have hm := rm.isLt
  have hc := c.toBits_lt
  have code : field w 28 4 = c.toBits := (field_eq_iff _ _ _ _).2 (by omega)
  have registers : field w 16 4 = rn ∧ field w 12 4 = rd ∧ field w 0 4 = rm :=
    ⟨(field_eq_iff _ _ _ _).2 (by omega), (field_eq_iff _ _ _ _).2 (by omega), (field_eq_iff _ _ _ _).2 (by omega)⟩
  have fixed : field w 24 4 = 0b0001 ∧ field w 25 3 = 0b000 ∧ field w 26 2 = 0b00 ∧ field w 23 5 = 0b00010
      ∧ field w 20 2 = 0 ∧ field w 8 4 = 0 ∧ field w 5 2 = 0b00 := by
    refine ⟨?_, ?_, ?_, ?_, ?_, ?_, ?_⟩ <;> exact (field_eq_iff _ _ _ _).2 (by simp; omega)
  have low : flag w 7 = true ∧ flag w 4 = true := ⟨(flag_iff _ _).2 (by omega), (flag_iff _ _).2 (by omega)⟩
  obtain ⟨hrn, hrd, hrm⟩ := registers
  obtain ⟨f24, f25, f26, f23, f20, f8, f5⟩ := fixed
  obtain ⟨g7, g4⟩ := low
  have opcode : field w 20 8 ≠ 0b11100010 ∧ field w 21 7 ≠ 0b1100010 ∧ field w 22 6 ≠ 0 ∧ flag w 22 = b := by
    refine ⟨?_, ?_, ?_, (flag_eq_iff _ _ _).2 (by omega)⟩ <;>
    exact mt (field_eq_iff _ _ _ _).1 (by simp; omega)
  obtain ⟨h20, h21, h22, hb22⟩ := opcode
  unfold decodeWord decodeConditional decodeMultiplySwap
  simp only [code, Cond.ofBits_toBits, hrn, hrd, hrm, f24, f25, f26, f23, f20, f8, f5, g7, g4, h20, h21, h22, hb22]
  cases b <;> rfl

section
variable {s : State} {a : Access} {va v : Word} {rd : Reg}

/-- SWP at an address, in a quiet environment. -/
theorem swapWord_completes (hal : va.toNat % 4 = 0) (q : s.NoDataError) (hcan : s.MemoryCanonical)
    (ht : dataTranslate true va va s = .ok a) (hr : rd ≠ Reg.pc) :
    ∃ t, ((swapWordAt va v s).bind fun (t, r) => .ok (t.setReg rd r).advance).finish s = .next t
      ∧ t.reg rd = Memory.readWord s.mem a.pa.toNat ∧ Memory.readWord t.mem a.pa.toNat = v ∧ t.cpsr = s.cpsr
      ∧ Advanced s t ∧ AccessFrame [rd] a.pa.toNat 4 a.state s t ∧ t.subWord = s.subWord := by
  obtain ⟨_, hm, _, _, _, hsub⟩ := dataTranslate_like ht
  have qa : a.state.NoDataError := dataTranslate_quiet ht q
  have hpa : a.pa.toNat % 4 = 0 := (dataTranslate_mod_four ht).trans hal
  have hdone := (Accessing.start (first := a.pa.toNat) (n := 4) ht).storeBytes (bs := bytesOfWord v) (Nat.le_refl _)
    (Nat.le_refl _)
  obtain ⟨t, hx, hv, hc, hadv, hf, htm, hts⟩ :=
    swap_spec (v := Memory.readWord s.mem a.pa.toNat) hdone.step hdone.owed hdone.memory hr
  have hmem : t.mem = Memory.writeWord s.mem a.pa.toNat v := by
    rw [htm, ← hm]
    exact storeWord_mem_quiet qa _ _ _
  refine ⟨t, ?_, hv, ?_, hc, hadv, hf.of_dtlb hdone.dtlb, hts.trans hsub⟩
  · rw [swapWordAt_eq hal ht, State.owe_quiet (storeWord_quiet qa _ _ _), State.loaded_quiet qa, hm, ← hx]
    rfl
  · rw [hmem]
    exact Memory.readWord_writeWord hcan (word_fits hpa) v

/-- SWPB at an address, in a quiet environment. -/
theorem swapByte_completes (q : s.NoDataError) (hcan : s.MemoryCanonical) (ht : dataTranslate true va va s = .ok a)
    (hr : rd ≠ Reg.pc) :
    ∃ t, ((swapByteAt va v s).bind fun (t, r) => .ok (t.setReg rd r).advance).finish s = .next t
      ∧ t.reg rd = (Memory.read s.mem (s.byteLane a.pa)).setWidth 32
      ∧ Memory.read t.mem (s.byteLane a.pa) = v.extractLsb' 0 8 ∧ t.cpsr = s.cpsr ∧ Advanced s t
      ∧ AccessFrame [rd] (s.byteLane a.pa) 1 a.state s t ∧ t.subWord = true := by
  obtain ⟨_, hm, _⟩ := dataTranslate_like ht
  have qa : a.state.NoDataError := dataTranslate_quiet ht q
  have hlane : a.state.byteLane a.pa = s.byteLane a.pa := by
    unfold State.byteLane
    rw [dataTranslate_bigEndian ht]
  have hdone := (Accessing.start (first := s.byteLane a.pa) (n := 1) ht).storeBytes (bs := [byteOfWord v 0])
    (Nat.le_refl _) (Nat.le_refl _)
  obtain ⟨t, hx, hv, hc, hadv, hf, htm, hts⟩ :=
    swap_spec (u := (a.state.storeBytes a.policy (s.byteLane a.pa) [byteOfWord v 0]).noteSubWord)
      (v := (Memory.read s.mem (s.byteLane a.pa)).setWidth 32) (hdone.step.trans rfl) hdone.owed hdone.memory hr
  have hmem : t.mem = Memory.write s.mem (s.byteLane a.pa) (byteOfWord v 0) := by
    rw [htm, ← hm]
    exact State.storeBytes_mem_quiet qa _ _ _
  refine ⟨t, ?_, hv, ?_, hc, hadv, hf.of_dtlb hdone.dtlb, hts⟩
  · have qs : (a.state.storeBytes a.policy (s.byteLane a.pa) [byteOfWord v 0]).NoDataError := qa
    rw [swapByteAt_eq ht, hlane, State.owe_quiet qs, State.loaded_quiet qa, hm, ← hx]
    rfl
  · rw [hmem]
    exact Memory.read_write_same hcan _ _

/-- A predictable SWP or SWPB loads a register below R15 (rules R296, R297). -/
theorem swap_predictable {c : Cond} {rn rm : Reg} (h : (Instr.swp c rn rd rm).predictable = true) : rd ≠ Reg.pc := by
  obtain ⟨hn, _⟩ := Bool.and_eq_true_iff.1 (Bool.and_eq_true_iff.1 h).1
  exact ne_pc_of_noneIsPc hn (by simp)

end

/-- Settles O37: the two words, and the exchange of the word and of the byte. -/
theorem swpAndSwpbExchange : Obligations.SwpAndSwpbExchange := by
  refine ⟨⟨fun c rn rd rm => decodeWord_swap false (swapBits_toNat c rn rd rm 0x10),
      fun c rn rd rm s a hc hp hal q hcan ht =>
        checked_completes hc hp (swapWord_completes hal q hcan ht (swap_predictable hp))⟩,
    fun c rn rd rm => decodeWord_swap true (swapBits_toNat c rn rd rm 0x14),
    fun c rn rd rm s a k hc hp q hcan ht hk => ?_⟩
  have hk4 : k < 4 := by
    subst hk
    split <;> omega
  have hlane : s.byteLane a.pa = a.pa.toNat / 4 * 4 + k := by rw [byteLane_eq, hk]
  obtain ⟨t, hx, h⟩ := swapByte_completes (v := s.reg rm) q hcan ht (swap_predictable (c := c) (rm := rm) hp)
  rw [hlane] at h
  rw [readWord_byte _ _ hk4]
  exact checked_completes hc hp ⟨t, hx, h⟩

end Sys2Proof.Machine
end

section
/-!
The rows of the opcode table as lists of fields, from bit 31 down: what the encoder writes and what the decoder reads.
-/
namespace Sys2Proof

/-- A field of an instruction word. -/
structure Field where
  {width : Nat}
  value : BitVec width

/-- A one-bit field. -/
def Field.bit (b : Bool) : Field := ⟨BitVec.ofBool b⟩

/-- A row of the opcode table: the fields of a word, from bit 31 down. -/
abbrev Row := List Field

namespace Row

/-- How many bits a row has. -/
def width : Row → Nat
  | [] => 0
  | f :: r => f.width + width r

/-- The number a row stands for. -/
def code : Row → Nat
  | [] => 0
  | f :: r => put f.value (width r) + code r

/-- A word has the fields of a row in its low bits. -/
def Reads (w : Word) : Row → Prop
  | [] => True
  | f :: r => field w (width r) f.width = f.value ∧ Reads w r

@[simp] theorem width_nil : width [] = 0 := rfl
@[simp] theorem width_field {n : Nat} (v : BitVec n) (r : Row) : width (⟨v⟩ :: r) = n + width r := rfl
@[simp] theorem width_bit (b : Bool) (r : Row) : width (.bit b :: r) = 1 + width r := rfl

@[simp] theorem code_nil : code [] = 0 := rfl
@[simp] theorem code_field {n : Nat} (v : BitVec n) (r : Row) : code (⟨v⟩ :: r) = put v (width r) + code r := rfl
@[simp] theorem code_bit (b : Bool) (r : Row) : code (.bit b :: r) = putBit b (width r) + code r := by
  cases b <;> rfl

@[simp] theorem reads_nil (w : Word) : Reads w [] := trivial
@[simp] theorem reads_field (w : Word) {n : Nat} (v : BitVec n) (r : Row) :
    Reads w (⟨v⟩ :: r) ↔ field w (width r) n = v ∧ Reads w r := Iff.rfl
@[simp] theorem reads_bit (w : Word) (b : Bool) (r : Row) :
    Reads w (.bit b :: r) ↔ flag w (width r) = b ∧ Reads w r := by
  refine and_congr ?_ Iff.rfl
  rw [flag_eq_iff]
  exact (field_eq_iff w (width r) 1 (BitVec.ofBool b)).trans (by rw [BitVec.toNat_ofBool, Nat.pow_one])

theorem code_lt (r : Row) : r.code < 2 ^ r.width := by
  induction r with
  | nil => exact Nat.one_pos
  | cons f r ih =>
    show f.value.toNat * 2 ^ width r + code r < 2 ^ (f.width + width r)
    calc f.value.toNat * 2 ^ width r + code r
      _ < f.value.toNat * 2 ^ width r + 2 ^ width r := Nat.add_lt_add_left ih _
      _ = (f.value.toNat + 1) * 2 ^ width r := (Nat.succ_mul _ _).symm
      _ ≤ 2 ^ f.width * 2 ^ width r := Nat.mul_le_mul_right _ f.value.isLt
      _ = 2 ^ (f.width + width r) := (Nat.pow_add _ _ _).symm

/-- The low bits of a word are a row's number exactly where the word has the row's fields. -/
theorem code_eq_iff (w : Word) (r : Row) : r.code = w.toNat % 2 ^ r.width ↔ r.Reads w := by
  induction r with
  | nil => exact iff_of_true (Nat.mod_one _).symm trivial
  | cons f r ih =>
    show f.value.toNat * 2 ^ width r + code r = w.toNat % 2 ^ (f.width + width r)
      ↔ field w (width r) f.width = f.value ∧ Reads w r
    have hlt : code r < 2 ^ width r := code_lt r
    have hmod := Nat.mod_lt w.toNat (Nat.two_pow_pos (width r))
    rw [← ih, field_eq_iff, Nat.add_comm f.width, Nat.pow_add, Nat.mod_mul]
    generalize w.toNat / 2 ^ width r % 2 ^ f.width = x at *
    generalize w.toNat % 2 ^ width r = y at *
    generalize 2 ^ width r = b at *
    have hb : 0 < b := Nat.zero_lt_of_lt hlt
    constructor
    · intro h
      have hdiv := congrArg (· / b) h
      have hrem := congrArg (· % b) h
      simp only [Nat.mul_comm b x, Nat.add_comm _ (code r), Nat.add_mul_div_right _ _ hb, Nat.add_mul_mod_self_right,
        Nat.div_eq_of_lt, Nat.mod_eq_of_lt, hlt, hmod, Nat.zero_add] at hdiv hrem
      exact ⟨hdiv.symm, hrem⟩
    · rintro ⟨rfl, rfl⟩
      rw [Nat.mul_comm, Nat.add_comm]

/-! ## The rows, format by format -/

/-- PLD with an immediate offset (rule R150). -/
@[simp] def pldImm (u : Bool) (rn : Reg) (off : BitVec 12) : Row :=
  [⟨0xF#4⟩, ⟨0b01#2⟩, .bit false, .bit true, .bit u, ⟨0b101#3⟩, ⟨rn⟩, ⟨0xF#4⟩, ⟨off⟩]

/-- PLD with a scaled register offset (rule R150). -/
@[simp] def pldReg (u : Bool) (rn : Reg) (n : BitVec 5) (sh : Shift) (rm : Reg) : Row :=
  [⟨0xF#4⟩, ⟨0b01#2⟩, .bit true, .bit true, .bit u, ⟨0b101#3⟩, ⟨rn⟩, ⟨0xF#4⟩, ⟨n⟩, ⟨sh.toBits⟩, .bit false, ⟨rm⟩]

/-- BLX with an immediate (rule R151). -/
@[simp] def blxImm (h : Bool) (imm : BitVec 24) : Row := [⟨0xF#4⟩, ⟨0b101#3⟩, .bit h, ⟨imm⟩]

/-- The Multiply with Internal Accumulate format (rule R142). -/
@[simp] def accumulate (c : Cond) (op3 : BitVec 4) (rs rm : Reg) : Row :=
  [⟨c.toBits⟩, ⟨0xE2#8⟩, ⟨op3⟩, ⟨rs⟩, ⟨0#4⟩, ⟨0#3⟩, .bit true, ⟨rm⟩]

/-- MAR and MRA (rule R143). -/
@[simp] def accumulatorTransfer (c : Cond) (l : Bool) (hi lo : Reg) : Row :=
  [⟨c.toBits⟩, ⟨0b1100010#7⟩, .bit l, ⟨hi⟩, ⟨lo⟩, ⟨0#4⟩, ⟨0#5⟩, ⟨0#3⟩]

/-- MCRR and MRRC (rule R145). -/
@[simp] def coprocessorTransfer (c : Cond) (l : Bool) (rn rd cp op crm : BitVec 4) : Row :=
  [⟨c.toBits⟩, ⟨0b1100010#7⟩, .bit l, ⟨rn⟩, ⟨rd⟩, ⟨cp⟩, ⟨op⟩, ⟨crm⟩]

/-- MCR and MRC (rule R144). -/
@[simp] def registerTransfer (c : Cond) (l : Bool) (crn : BitVec 4) (rd : Reg) (op2 : BitVec 3)
    (crm : BitVec 4) : Row :=
  [⟨c.toBits⟩, ⟨0b1110#4⟩, ⟨0#3⟩, .bit l, ⟨crn⟩, ⟨rd⟩, ⟨0xF#4⟩, ⟨op2⟩, .bit true, ⟨crm⟩]

/-- B and BL (rule R151). -/
@[simp] def branch (c : Cond) (l : Bool) (imm : BitVec 24) : Row := [⟨c.toBits⟩, ⟨0b101#3⟩, .bit l, ⟨imm⟩]

/-- SWI (rule R305). -/
@[simp] def swi (c : Cond) (imm : BitVec 24) : Row := [⟨c.toBits⟩, ⟨0xF#4⟩, ⟨imm⟩]

/-- LDR and STR with an immediate offset (rule R149). -/
@[simp] def wordImm (c : Cond) (m : Index) (u l : Bool) (rn rd : Reg) (off : BitVec 12) : Row :=
  [⟨c.toBits⟩, ⟨0b01#2⟩, .bit false, .bit m.p, .bit u, .bit false, .bit m.w, .bit l, ⟨rn⟩, ⟨rd⟩, ⟨off⟩]

/-- LDR and STR with a scaled register offset (rule R149). -/
@[simp] def wordReg (c : Cond) (m : Index) (u l : Bool) (rn rd : Reg) (n : BitVec 5) (sh : Shift) (rm : Reg) : Row :=
  [⟨c.toBits⟩, ⟨0b01#2⟩, .bit true, .bit m.p, .bit u, .bit false, .bit m.w, .bit l, ⟨rn⟩, ⟨rd⟩, ⟨n⟩, ⟨sh.toBits⟩,
    .bit false, ⟨rm⟩]

/-- MLA (rule R290). -/
@[simp] def mla (c : Cond) (s : Bool) (rd rn rs rm : Reg) : Row :=
  [⟨c.toBits⟩, ⟨0#6⟩, .bit true, .bit s, ⟨rd⟩, ⟨rn⟩, ⟨rs⟩, .bit true, ⟨0#2⟩, .bit true, ⟨rm⟩]

/-- SWP and SWPB (rule R153). -/
@[simp] def swap (c : Cond) (b : Bool) (rn rd rm : Reg) : Row :=
  [⟨c.toBits⟩, ⟨0b00010#5⟩, .bit b, ⟨0#2⟩, ⟨rn⟩, ⟨rd⟩, ⟨0#4⟩, .bit true, ⟨0#2⟩, .bit true, ⟨rm⟩]

/-- LDRSH, LDRD and STRD (rule R149), with the two nibbles of the offset; `i` is the immediate form. -/
@[simp] def extraTransfer (c : Cond) (m : Index) (u i l : Bool) (rn rd : Reg) (hi : BitVec 4) (op : BitVec 2)
    (lo : BitVec 4) : Row :=
  [⟨c.toBits⟩, ⟨0#3⟩, .bit m.p, .bit u, .bit i, .bit m.w, .bit l, ⟨rn⟩, ⟨rd⟩, ⟨hi⟩, .bit true, ⟨op⟩, .bit true, ⟨lo⟩]

/-- The signed 16-bit multiplies (rule R152). -/
@[simp] def halfMultiply (c : Cond) (op : BitVec 2) (a b rs : Reg) (y x : Bool) (rm : Reg) : Row :=
  [⟨c.toBits⟩, ⟨0b00010#5⟩, ⟨op⟩, .bit false, ⟨a⟩, ⟨b⟩, ⟨rs⟩, .bit true, .bit y, .bit x, .bit false, ⟨rm⟩]

/-- The saturating additions and subtractions (rule R152). -/
@[simp] def saturating (c : Cond) (op : BitVec 2) (rn rd rm : Reg) : Row :=
  [⟨c.toBits⟩, ⟨0b00010#5⟩, ⟨op⟩, .bit false, ⟨rn⟩, ⟨rd⟩, ⟨0#4⟩, ⟨0b0101#4⟩, ⟨rm⟩]

/-- BX and BLX of a register (rule R153). -/
@[simp] def exchange (c : Cond) (op : BitVec 4) (rm : Reg) : Row :=
  [⟨c.toBits⟩, ⟨0b00010#5⟩, ⟨0b01#2⟩, .bit false, ⟨0xFFF#12⟩, ⟨op⟩, ⟨rm⟩]

/-- CLZ (rule R304). -/
@[simp] def clz (c : Cond) (rd rm : Reg) : Row :=
  [⟨c.toBits⟩, ⟨0b00010#5⟩, ⟨0b11#2⟩, .bit false, ⟨0xF#4⟩, ⟨rd⟩, ⟨0xF#4⟩, ⟨0b0001#4⟩, ⟨rm⟩]

/-- MRS (rule R153). -/
@[simp] def mrs (c : Cond) (r : Bool) (rd : Reg) : Row :=
  [⟨c.toBits⟩, ⟨0b00010#5⟩, .bit r, .bit false, .bit false, ⟨0xF#4⟩, ⟨rd⟩, ⟨0#12⟩]

/-- MSR of a register (rule R153). -/
@[simp] def msrReg (c : Cond) (r : Bool) (mask : BitVec 4) (rm : Reg) : Row :=
  [⟨c.toBits⟩, ⟨0b00010#5⟩, .bit r, .bit true, .bit false, ⟨mask⟩, ⟨0xF#4⟩, ⟨0#4⟩, ⟨0#4⟩, ⟨rm⟩]

/-- MSR of an immediate (rule R153). -/
@[simp] def msrImm (c : Cond) (r : Bool) (mask rot : BitVec 4) (imm : BitVec 8) : Row :=
  [⟨c.toBits⟩, ⟨0b00110#5⟩, .bit r, ⟨0b10#2⟩, ⟨mask⟩, ⟨0xF#4⟩, ⟨rot⟩, ⟨imm⟩]

/-- Data processing with a rotated immediate (rule R147). -/
@[simp] def dataImm (c : Cond) (op : BitVec 4) (s : Bool) (rn rd : Reg) (rot : BitVec 4) (imm : BitVec 8) : Row :=
  [⟨c.toBits⟩, ⟨0b00#2⟩, .bit true, ⟨op⟩, .bit s, ⟨rn⟩, ⟨rd⟩, ⟨rot⟩, ⟨imm⟩]

/-- Data processing with a register shifted by an immediate (rule R147). -/
@[simp] def dataShiftImm (c : Cond) (op : BitVec 4) (s : Bool) (rn rd : Reg) (n : BitVec 5) (sh : Shift)
    (rm : Reg) : Row :=
  [⟨c.toBits⟩, ⟨0b00#2⟩, .bit false, ⟨op⟩, .bit s, ⟨rn⟩, ⟨rd⟩, ⟨n⟩, ⟨sh.toBits⟩, .bit false, ⟨rm⟩]

/-- Data processing with a register shifted by a register (rule R147). -/
@[simp] def dataShiftReg (c : Cond) (op : BitVec 4) (s : Bool) (rn rd rs : Reg) (sh : Shift) (rm : Reg) : Row :=
  [⟨c.toBits⟩, ⟨0b00#2⟩, .bit false, ⟨op⟩, .bit s, ⟨rn⟩, ⟨rd⟩, ⟨rs⟩, .bit false, ⟨sh.toBits⟩, .bit true, ⟨rm⟩]

end Row

/-- The high nibble of an 8-bit offset (rule R149). -/
def offsetHigh (off : BitVec 8) : BitVec 4 := off.extractLsb' 4 4

/-- The low nibble of an 8-bit offset (rule R149). -/
def offsetLow (off : BitVec 8) : BitVec 4 := off.extractLsb' 0 4

/-- The offset of two nibbles, as the decoder puts them together. -/
def offsetOf (hi lo : BitVec 4) : BitVec 8 := BitVec.ofNat 8 (hi.toNat * 16 + lo.toNat)

theorem offsetOf_nibbles (off : BitVec 8) : offsetOf (offsetHigh off) (offsetLow off) = off := by
  apply BitVec.eq_of_toNat_eq
  simp [offsetOf, offsetHigh, offsetLow, BitVec.extractLsb'_toNat, Nat.shiftRight_eq_div_pow]
  omega

theorem nibbles_offsetOf (hi lo : BitVec 4) :
    offsetHigh (offsetOf hi lo) = hi ∧ offsetLow (offsetOf hi lo) = lo := by
  have hhi := hi.isLt
  have hlo := lo.isLt
  constructor <;> apply BitVec.eq_of_toNat_eq <;>
  simp [offsetOf, offsetHigh, offsetLow, BitVec.extractLsb'_toNat, Nat.shiftRight_eq_div_pow] <;> omega

/-- The row of an instruction, with its operands in it. -/
def Instr.row : Instr → Row
  | .pldImm u rn off => .pldImm u rn off
  | .pldReg u rn n sh rm => .pldReg u rn n sh rm
  | .blxImm h imm => .blxImm h imm
  | .mia c rs rm => .accumulate c 0b0000 rs rm
  | .miaph c rs rm => .accumulate c 0b1000 rs rm
  | .miabb c rs rm => .accumulate c 0b1100 rs rm
  | .miabt c rs rm => .accumulate c 0b1101 rs rm
  | .miatb c rs rm => .accumulate c 0b1110 rs rm
  | .miatt c rs rm => .accumulate c 0b1111 rs rm
  | .mar c hi lo => .accumulatorTransfer c false hi lo
  | .mra c hi lo => .accumulatorTransfer c true hi lo
  | .mcrr c rn rd cp op crm => .coprocessorTransfer c false rn rd cp op crm
  | .mrrc c rn rd cp op crm => .coprocessorTransfer c true rn rd cp op crm
  | .mcr c crn rd op2 crm => .registerTransfer c false crn rd op2 crm
  | .mrc c crn rd op2 crm => .registerTransfer c true crn rd op2 crm
  | .b c imm => .branch c false imm
  | .bl c imm => .branch c true imm
  | .swi c imm => .swi c imm
  | .ldrImm c m u rn rd off => .wordImm c m u true rn rd off
  | .ldrReg c m u rn rd n sh rm => .wordReg c m u true rn rd n sh rm
  | .strImm c m u rn rd off => .wordImm c m u false rn rd off
  | .strReg c m u rn rd n sh rm => .wordReg c m u false rn rd n sh rm
  | .mla c s rd rn rs rm => .mla c s rd rn rs rm
  | .swp c rn rd rm => .swap c false rn rd rm
  | .swpb c rn rd rm => .swap c true rn rd rm
  | .ldrshImm c m u rn rd off => .extraTransfer c m u true true rn rd (offsetHigh off) 0b11 (offsetLow off)
  | .ldrshReg c m u rn rd rm => .extraTransfer c m u false true rn rd 0 0b11 rm
  | .ldrdImm c m u rn rd off => .extraTransfer c m u true false rn rd (offsetHigh off) 0b10 (offsetLow off)
  | .ldrdReg c m u rn rd rm => .extraTransfer c m u false false rn rd 0 0b10 rm
  | .strdImm c m u rn rd off => .extraTransfer c m u true false rn rd (offsetHigh off) 0b11 (offsetLow off)
  | .strdReg c m u rn rd rm => .extraTransfer c m u false false rn rd 0 0b11 rm
  | .smla c rd rn rs y x rm => .halfMultiply c 0b00 rd rn rs y.toBit x.toBit rm
  | .smlaw c rd rn rs y rm => .halfMultiply c 0b01 rd rn rs y.toBit false rm
  | .smulw c rd rs y rm => .halfMultiply c 0b01 rd 0 rs y.toBit true rm
  | .smlal c hi lo rs y x rm => .halfMultiply c 0b10 hi lo rs y.toBit x.toBit rm
  | .smul c rd rs y x rm => .halfMultiply c 0b11 rd 0 rs y.toBit x.toBit rm
  | .qadd c rn rd rm => .saturating c 0b00 rn rd rm
  | .qsub c rn rd rm => .saturating c 0b01 rn rd rm
  | .qdadd c rn rd rm => .saturating c 0b10 rn rd rm
  | .qdsub c rn rd rm => .saturating c 0b11 rn rd rm
  | .bx c rm => .exchange c 0b0001 rm
  | .blxReg c rm => .exchange c 0b0011 rm
  | .clz c rd rm => .clz c rd rm
  | .mrs c r rd => .mrs c r rd
  | .msrReg c r mask rm => .msrReg c r mask rm
  | .msrImm c r mask rot imm => .msrImm c r mask rot imm
  | .movImm c s rd rot imm => .dataImm c 0b1101 s 0 rd rot imm
  | .movShiftImm c s rd n sh rm => .dataShiftImm c 0b1101 s 0 rd n sh rm
  | .movShiftReg c s rd rs sh rm => .dataShiftReg c 0b1101 s 0 rd rs sh rm
  | .addImm c s rn rd rot imm => .dataImm c 0b0100 s rn rd rot imm
  | .addShiftImm c s rn rd n sh rm => .dataShiftImm c 0b0100 s rn rd n sh rm
  | .addShiftReg c s rn rd rs sh rm => .dataShiftReg c 0b0100 s rn rd rs sh rm
  | .subImm c s rn rd rot imm => .dataImm c 0b0010 s rn rd rot imm
  | .subShiftImm c s rn rd n sh rm => .dataShiftImm c 0b0010 s rn rd n sh rm
  | .subShiftReg c s rn rd rs sh rm => .dataShiftReg c 0b0010 s rn rd rs sh rm
  | .orrImm c s rn rd rot imm => .dataImm c 0b1100 s rn rd rot imm
  | .orrShiftImm c s rn rd n sh rm => .dataShiftImm c 0b1100 s rn rd n sh rm
  | .orrShiftReg c s rn rd rs sh rm => .dataShiftReg c 0b1100 s rn rd rs sh rm

/-! ## The encoder writes the row -/

/-- A row is a whole word (rule R140). -/
theorem Instr.row_width (i : Instr) : i.row.width = 32 := by
  cases i <;> simp [Instr.row]

theorem putSplit_eq (off : BitVec 8) : putSplit off = put (offsetHigh off) 8 + put (offsetLow off) 0 := by
  simp only [putSplit, put, offsetHigh, offsetLow, BitVec.extractLsb'_toNat, Nat.shiftRight_eq_div_pow]
  omega

/-- A sum of fields is the row's number, whatever the order and however the fixed fields are gathered. -/
theorem Instr.row_code (i : Instr) : i.row.code = i.code := by
  cases i <;>
  simp [Instr.row, Instr.code, putTransfer, putShiftImm, putShiftReg, putSplit_eq, put, putBit] <;>
  omega

/-- A word is the one of an instruction exactly where it has the fields of its row. -/
theorem encode_eq_iff (i : Instr) (w : Word) : encode i = w ↔ i.row.Reads w := by
  have hlt : i.code < 2 ^ 32 := by
    rw [← i.row_code, ← i.row_width]
    exact i.row.code_lt
  rw [← Row.code_eq_iff, i.row_width, i.row_code, ← BitVec.toNat_inj, encode, BitVec.toNat_ofNat,
    Nat.mod_eq_of_lt w.isLt, Nat.mod_eq_of_lt hlt]

end Sys2Proof
end

section
/-!
What a word with the fields of a row has, in the decoder's own terms.
-/
namespace Sys2Proof.Row

section
variable {w : Word} {c : Cond} {m : Index} {sh : Shift} {u l s r h i y x : Bool} {rn rd rs rm a b : Reg}
  {cp op4 crm mask rot hi lo : BitVec 4} {op3 : BitVec 3} {op2 : BitVec 2} {n : BitVec 5} {imm8 : BitVec 8}
  {off : BitVec 12} {imm24 : BitVec 24}

theorem pldImm_reads : (pldImm u rn off).Reads w ↔ field w 28 4 = 0xF ∧ field w 26 2 = 0b01 ∧ flag w 25 = false
    ∧ flag w 24 = true ∧ flag w 23 = u ∧ field w 20 3 = 0b101 ∧ field w 16 4 = rn ∧ field w 12 4 = 0xF
    ∧ field w 0 12 = off := by simp

theorem pldReg_reads : (pldReg u rn n sh rm).Reads w ↔ field w 28 4 = 0xF ∧ field w 26 2 = 0b01 ∧ flag w 25 = true
    ∧ flag w 24 = true ∧ flag w 23 = u ∧ field w 20 3 = 0b101 ∧ field w 16 4 = rn ∧ field w 12 4 = 0xF
    ∧ field w 7 5 = n ∧ field w 5 2 = sh.toBits ∧ flag w 4 = false ∧ field w 0 4 = rm := by simp

theorem blxImm_reads : (blxImm h imm24).Reads w ↔ field w 28 4 = 0xF ∧ field w 25 3 = 0b101 ∧ flag w 24 = h
    ∧ field w 0 24 = imm24 := by simp

theorem accumulate_reads : (accumulate c op4 rs rm).Reads w ↔ field w 28 4 = c.toBits ∧ field w 20 8 = 0xE2
    ∧ field w 16 4 = op4 ∧ field w 12 4 = rs ∧ field w 8 4 = 0 ∧ field w 5 3 = 0 ∧ flag w 4 = true
    ∧ field w 0 4 = rm := by simp

theorem accumulatorTransfer_reads : (accumulatorTransfer c l hi lo).Reads w ↔ field w 28 4 = c.toBits
    ∧ field w 21 7 = 0b1100010 ∧ flag w 20 = l ∧ field w 16 4 = hi ∧ field w 12 4 = lo ∧ field w 8 4 = 0
    ∧ field w 3 5 = 0 ∧ field w 0 3 = 0 := by simp

theorem coprocessorTransfer_reads : (coprocessorTransfer c l rn rd cp op4 crm).Reads w ↔ field w 28 4 = c.toBits
    ∧ field w 21 7 = 0b1100010 ∧ flag w 20 = l ∧ field w 16 4 = rn ∧ field w 12 4 = rd ∧ field w 8 4 = cp
    ∧ field w 4 4 = op4 ∧ field w 0 4 = crm := by simp

theorem registerTransfer_reads : (registerTransfer c l cp rd op3 crm).Reads w ↔ field w 28 4 = c.toBits
    ∧ field w 24 4 = 0b1110 ∧ field w 21 3 = 0 ∧ flag w 20 = l ∧ field w 16 4 = cp ∧ field w 12 4 = rd
    ∧ field w 8 4 = 0xF ∧ field w 5 3 = op3 ∧ flag w 4 = true ∧ field w 0 4 = crm := by simp

theorem branch_reads : (branch c l imm24).Reads w ↔ field w 28 4 = c.toBits ∧ field w 25 3 = 0b101 ∧ flag w 24 = l
    ∧ field w 0 24 = imm24 := by simp

theorem swi_reads : (swi c imm24).Reads w ↔ field w 28 4 = c.toBits ∧ field w 24 4 = 0xF
    ∧ field w 0 24 = imm24 := by simp

theorem wordImm_reads : (wordImm c m u l rn rd off).Reads w ↔ field w 28 4 = c.toBits ∧ field w 26 2 = 0b01
    ∧ flag w 25 = false ∧ flag w 24 = m.p ∧ flag w 23 = u ∧ flag w 22 = false ∧ flag w 21 = m.w ∧ flag w 20 = l
    ∧ field w 16 4 = rn ∧ field w 12 4 = rd ∧ field w 0 12 = off := by simp

theorem wordReg_reads : (wordReg c m u l rn rd n sh rm).Reads w ↔ field w 28 4 = c.toBits ∧ field w 26 2 = 0b01
    ∧ flag w 25 = true ∧ flag w 24 = m.p ∧ flag w 23 = u ∧ flag w 22 = false ∧ flag w 21 = m.w ∧ flag w 20 = l
    ∧ field w 16 4 = rn ∧ field w 12 4 = rd ∧ field w 7 5 = n ∧ field w 5 2 = sh.toBits ∧ flag w 4 = false
    ∧ field w 0 4 = rm := by simp

theorem mla_reads : (mla c s rd rn rs rm).Reads w ↔ field w 28 4 = c.toBits ∧ field w 22 6 = 0 ∧ flag w 21 = true
    ∧ flag w 20 = s ∧ field w 16 4 = rd ∧ field w 12 4 = rn ∧ field w 8 4 = rs ∧ flag w 7 = true ∧ field w 5 2 = 0
    ∧ flag w 4 = true ∧ field w 0 4 = rm := by simp

theorem swap_reads : (swap c l rn rd rm).Reads w ↔ field w 28 4 = c.toBits ∧ field w 23 5 = 0b00010 ∧ flag w 22 = l
    ∧ field w 20 2 = 0 ∧ field w 16 4 = rn ∧ field w 12 4 = rd ∧ field w 8 4 = 0 ∧ flag w 7 = true ∧ field w 5 2 = 0
    ∧ flag w 4 = true ∧ field w 0 4 = rm := by simp

theorem extraTransfer_reads : (extraTransfer c m u i l rn rd hi op2 lo).Reads w ↔ field w 28 4 = c.toBits
    ∧ field w 25 3 = 0 ∧ flag w 24 = m.p ∧ flag w 23 = u ∧ flag w 22 = i ∧ flag w 21 = m.w ∧ flag w 20 = l
    ∧ field w 16 4 = rn ∧ field w 12 4 = rd ∧ field w 8 4 = hi ∧ flag w 7 = true ∧ field w 5 2 = op2 ∧ flag w 4 = true
    ∧ field w 0 4 = lo := by simp

theorem halfMultiply_reads : (halfMultiply c op2 a b rs y x rm).Reads w ↔ field w 28 4 = c.toBits
    ∧ field w 23 5 = 0b00010 ∧ field w 21 2 = op2 ∧ flag w 20 = false ∧ field w 16 4 = a ∧ field w 12 4 = b
    ∧ field w 8 4 = rs ∧ flag w 7 = true ∧ flag w 6 = y ∧ flag w 5 = x ∧ flag w 4 = false
    ∧ field w 0 4 = rm := by simp

theorem saturating_reads : (saturating c op2 rn rd rm).Reads w ↔ field w 28 4 = c.toBits ∧ field w 23 5 = 0b00010
    ∧ field w 21 2 = op2 ∧ flag w 20 = false ∧ field w 16 4 = rn ∧ field w 12 4 = rd ∧ field w 8 4 = 0
    ∧ field w 4 4 = 0b0101 ∧ field w 0 4 = rm := by simp

theorem exchange_reads : (exchange c op4 rm).Reads w ↔ field w 28 4 = c.toBits ∧ field w 23 5 = 0b00010
    ∧ field w 21 2 = 0b01 ∧ flag w 20 = false ∧ field w 8 12 = 0xFFF ∧ field w 4 4 = op4 ∧ field w 0 4 = rm := by
  simp

theorem clz_reads : (clz c rd rm).Reads w ↔ field w 28 4 = c.toBits ∧ field w 23 5 = 0b00010 ∧ field w 21 2 = 0b11
    ∧ flag w 20 = false ∧ field w 16 4 = 0xF ∧ field w 12 4 = rd ∧ field w 8 4 = 0xF ∧ field w 4 4 = 0b0001
    ∧ field w 0 4 = rm := by simp

theorem mrs_reads : (mrs c r rd).Reads w ↔ field w 28 4 = c.toBits ∧ field w 23 5 = 0b00010 ∧ flag w 22 = r
    ∧ flag w 21 = false ∧ flag w 20 = false ∧ field w 16 4 = 0xF ∧ field w 12 4 = rd ∧ field w 0 12 = 0 := by simp

theorem msrReg_reads : (msrReg c r mask rm).Reads w ↔ field w 28 4 = c.toBits ∧ field w 23 5 = 0b00010 ∧ flag w 22 = r
    ∧ flag w 21 = true ∧ flag w 20 = false ∧ field w 16 4 = mask ∧ field w 12 4 = 0xF ∧ field w 8 4 = 0
    ∧ field w 4 4 = 0 ∧ field w 0 4 = rm := by simp

theorem msrImm_reads : (msrImm c r mask rot imm8).Reads w ↔ field w 28 4 = c.toBits ∧ field w 23 5 = 0b00110
    ∧ flag w 22 = r ∧ field w 20 2 = 0b10 ∧ field w 16 4 = mask ∧ field w 12 4 = 0xF ∧ field w 8 4 = rot
    ∧ field w 0 8 = imm8 := by simp

theorem dataImm_reads : (dataImm c op4 s rn rd rot imm8).Reads w ↔ field w 28 4 = c.toBits ∧ field w 26 2 = 0
    ∧ flag w 25 = true ∧ field w 21 4 = op4 ∧ flag w 20 = s ∧ field w 16 4 = rn ∧ field w 12 4 = rd
    ∧ field w 8 4 = rot ∧ field w 0 8 = imm8 := by simp

theorem dataShiftImm_reads : (dataShiftImm c op4 s rn rd n sh rm).Reads w ↔ field w 28 4 = c.toBits ∧ field w 26 2 = 0
    ∧ flag w 25 = false ∧ field w 21 4 = op4 ∧ flag w 20 = s ∧ field w 16 4 = rn ∧ field w 12 4 = rd
    ∧ field w 7 5 = n ∧ field w 5 2 = sh.toBits ∧ flag w 4 = false ∧ field w 0 4 = rm := by simp

theorem dataShiftReg_reads : (dataShiftReg c op4 s rn rd rs sh rm).Reads w ↔ field w 28 4 = c.toBits
    ∧ field w 26 2 = 0 ∧ flag w 25 = false ∧ field w 21 4 = op4 ∧ flag w 20 = s ∧ field w 16 4 = rn
    ∧ field w 12 4 = rd ∧ field w 8 4 = rs ∧ flag w 7 = false ∧ field w 5 2 = sh.toBits ∧ flag w 4 = true
    ∧ field w 0 4 = rm := by simp

end
end Sys2Proof.Row
end

section
/-!
The dispatch of rule R155: which decoder a word goes to, from the fields that tell the formats apart.
-/
namespace Sys2Proof

section
variable {w : Word}

/-! ## Fields of fields -/

/-- A bit of a field, as a flag of the word. -/
theorem flag_of_field {lo n : Nat} {v : BitVec n} (h : field w lo n = v) (i : Nat) (hi : i < n) :
    flag w (lo + i) = v.getLsbD i := by
  rw [← h, flag, field, BitVec.getLsbD_extractLsb', decide_eq_true hi, Bool.true_and]

/-- A field within a field. -/
theorem field_of_field {lo n : Nat} {v : BitVec n} (h : field w lo n = v) (k len : Nat) (hk : k + len ≤ n) :
    field w (lo + k) len = v.extractLsb' k len := by
  apply BitVec.eq_of_getLsbD_eq
  intro i hi
  rw [← flag_of_field (w := w) rfl i hi, Nat.add_assoc, flag_of_field h (k + i) (by omega),
    BitVec.getLsbD_extractLsb', decide_eq_true hi, Bool.true_and]

/-- One bit tells a field from a value. -/
theorem field_ne_of_flag {lo n : Nat} {v : BitVec n} {b : Bool} (i : Nat) (hb : flag w (lo + i) = b) (hi : i < n)
    (hne : v.getLsbD i ≠ b) : field w lo n ≠ v :=
  fun h => hne ((flag_of_field h i hi).symm.trans hb)

/-! ## The formats (rule R155) -/

theorem decodeWord_conditional {c : Cond} (h : field w 28 4 = c.toBits) : decodeWord w = decodeConditional c w := by
  unfold decodeWord
  rw [h, Cond.ofBits_toBits]

theorem decodeWord_unconditional (h : field w 28 4 = 0xF) : decodeWord w = decodeUnconditional w := by
  unfold decodeWord
  rw [h]
  rfl

variable {c : Cond}

theorem decodeConditional_accumulate (h20 : field w 20 8 = 0b11100010) (h8 : field w 8 4 = 0) (h4 : flag w 4 = true) :
    decodeConditional c w = decodeAccumulate c w := if_pos ⟨h20, h8, h4⟩

theorem decodeConditional_twoRegister (h : field w 21 7 = 0b1100010) :
    decodeConditional c w = decodeTwoRegister c w := by
  have h25 : flag w 25 = false := flag_of_field h 4 (by decide)
  unfold decodeConditional
  rw [if_neg fun e => field_ne_of_flag 5 h25 (by decide) (by decide) e.1, if_pos h]

theorem decodeConditional_registerTransfer (h24 : field w 24 4 = 0b1110) (h8 : field w 8 4 ≠ 0) (h4 : flag w 4 = true) :
    decodeConditional c w = decodeRegisterTransfer c w := by
  have h25 : flag w 25 = true := flag_of_field h24 1 (by decide)
  unfold decodeConditional
  rw [if_neg fun e => h8 e.2.1, if_neg (field_ne_of_flag 4 h25 (by decide) (by decide)), if_pos ⟨h24, h4⟩]

theorem decodeConditional_branch (h : field w 25 3 = 0b101) :
    decodeConditional c w = if flag w 24 then .ok (.bl c (field w 0 24)) else .ok (.b c (field w 0 24)) := by
  have h26 : flag w 26 = false := flag_of_field h 1 (by decide)
  unfold decodeConditional
  rw [if_neg fun e => field_ne_of_flag 6 h26 (by decide) (by decide) e.1,
    if_neg (field_ne_of_flag 5 h26 (by decide) (by decide)),
    if_neg fun e => field_ne_of_flag 2 h26 (by decide) (by decide) e.1, if_pos h]

theorem decodeConditional_swi (h : field w 24 4 = 0b1111) : decodeConditional c w = .ok (.swi c (field w 0 24)) := by
  have h24 : flag w 24 = true := flag_of_field h 0 (by decide)
  have h26 : flag w 26 = true := flag_of_field h 2 (by decide)
  unfold decodeConditional
  rw [if_neg fun e => field_ne_of_flag 4 h24 (by decide) (by decide) e.1,
    if_neg (field_ne_of_flag 3 h24 (by decide) (by decide)),
    if_neg fun e => field_ne_of_flag 0 h24 (by decide) (by decide) e.1,
    if_neg (field_ne_of_flag 1 h26 (by decide) (by decide)), if_pos h]

/-- With bit 27 clear a word is no coprocessor instruction, branch or SWI. -/
structure NotHigh (w : Word) : Prop where
  accumulate : ¬ (field w 20 8 = 0b11100010 ∧ field w 8 4 = 0 ∧ flag w 4 = true)
  twoRegister : field w 21 7 ≠ 0b1100010
  registerTransfer : ¬ (field w 24 4 = 0b1110 ∧ flag w 4 = true)
  branch : field w 25 3 ≠ 0b101
  swi : field w 24 4 ≠ 0b1111

theorem notHigh (h : flag w 27 = false) : NotHigh w where
  accumulate e := field_ne_of_flag 7 h (by decide) (by decide) e.1
  twoRegister := field_ne_of_flag 6 h (by decide) (by decide)
  registerTransfer e := field_ne_of_flag 3 h (by decide) (by decide) e.1
  branch := field_ne_of_flag 2 h (by decide) (by decide)
  swi := field_ne_of_flag 3 h (by decide) (by decide)

theorem decodeConditional_wordTransfer (h : field w 26 2 = 0b01) :
    decodeConditional c w = decodeWordTransfer c w := by
  obtain ⟨n1, n2, n3, n4, n5⟩ := notHigh (flag_of_field h 1 (by decide))
  unfold decodeConditional
  rw [if_neg n1, if_neg n2, if_neg n3, if_neg n4, if_neg n5, if_pos h]

/-- The decoder on the space with bits 27 and 26 clear: steps 9 to 12 of rule R155. -/
def decodeLowSpace (c : Cond) (w : Word) : Except DecodeError Instr :=
  if field w 25 3 = 0b000 ∧ flag w 7 = true ∧ flag w 4 = true then
    if field w 5 2 = 0b00 then decodeMultiplySwap c w else decodeExtraTransfer c w
  else if field w 23 5 = 0b00010 ∧ flag w 20 = false then
    if flag w 7 = true ∧ flag w 4 = false then decodeHalfMultiply c w else decodeMiscellaneous c w
  else if field w 23 5 = 0b00110 ∧ field w 20 2 = 0b10 then decodeMsrImmediate c w
  else decodeDataProcessing c w

theorem decodeConditional_lowSpace (h : field w 26 2 = 0b00) : decodeConditional c w = decodeLowSpace c w := by
  obtain ⟨n1, n2, n3, n4, n5⟩ := notHigh (flag_of_field h 1 (by decide))
  unfold decodeConditional
  rw [if_neg n1, if_neg n2, if_neg n3, if_neg n4, if_neg n5, if_neg (by rw [h]; decide), if_pos h]
  rfl

theorem decodeConditional_multiplySwap (h25 : field w 25 3 = 0b000) (h7 : flag w 7 = true) (h4 : flag w 4 = true)
    (h5 : field w 5 2 = 0b00) : decodeConditional c w = decodeMultiplySwap c w := by
  rw [decodeConditional_lowSpace (field_of_field h25 1 2 (by decide)), decodeLowSpace, if_pos ⟨h25, h7, h4⟩, if_pos h5]

theorem decodeConditional_extraTransfer (h25 : field w 25 3 = 0b000) (h7 : flag w 7 = true) (h4 : flag w 4 = true)
    (h5 : field w 5 2 ≠ 0b00) : decodeConditional c w = decodeExtraTransfer c w := by
  rw [decodeConditional_lowSpace (field_of_field h25 1 2 (by decide)), decodeLowSpace, if_pos ⟨h25, h7, h4⟩, if_neg h5]

theorem decodeConditional_halfMultiply (h23 : field w 23 5 = 0b00010) (h20 : flag w 20 = false)
    (h7 : flag w 7 = true) (h4 : flag w 4 = false) : decodeConditional c w = decodeHalfMultiply c w := by
  rw [decodeConditional_lowSpace (field_of_field h23 3 2 (by decide)), decodeLowSpace,
    if_neg fun e => Bool.noConfusion (h4.symm.trans e.2.2), if_pos ⟨h23, h20⟩, if_pos ⟨h7, h4⟩]

theorem decodeConditional_miscellaneous (h23 : field w 23 5 = 0b00010) (h20 : flag w 20 = false)
    (h7 : flag w 7 = false) : decodeConditional c w = decodeMiscellaneous c w := by
  rw [decodeConditional_lowSpace (field_of_field h23 3 2 (by decide)), decodeLowSpace,
    if_neg fun e => Bool.noConfusion (h7.symm.trans e.2.1), if_pos ⟨h23, h20⟩,
    if_neg fun e => Bool.noConfusion (h7.symm.trans e.1)]

theorem decodeConditional_msrImmediate (h23 : field w 23 5 = 0b00110) (h20 : field w 20 2 = 0b10) :
    decodeConditional c w = decodeMsrImmediate c w := by
  have h25 : flag w 25 = true := flag_of_field h23 2 (by decide)
  rw [decodeConditional_lowSpace (field_of_field h23 3 2 (by decide)), decodeLowSpace,
    if_neg fun e => field_ne_of_flag 0 h25 (by decide) (by decide) e.1,
    if_neg fun e => absurd (h23.symm.trans e.1) (by decide),
    if_pos ⟨h23, h20⟩]

/-- An opcode of data processing outside the tests and comparisons, `0b10xx`, whose words with S = 0 are others'. -/
theorem decodeConditional_dataProcessing {op : BitVec 4} (h26 : field w 26 2 = 0b00) (h21 : field w 21 4 = op)
    (hop : op.getLsbD 3 = false ∨ op.getLsbD 2 = true)
    (hm : flag w 25 = true ∨ flag w 7 = false ∨ flag w 4 = false) :
    decodeConditional c w = decodeDataProcessing c w := by
  have h23 : ∀ v : BitVec 5, v.getLsbD 1 = true → v.getLsbD 0 = false → field w 23 5 ≠ v := fun v h1 h0 => by
    rcases hop with h | h
    · exact field_ne_of_flag 1 ((flag_of_field h21 3 (by decide)).trans h) (by decide) (by rw [h1]; decide)
    · exact field_ne_of_flag 0 ((flag_of_field h21 2 (by decide)).trans h) (by decide) (by rw [h0]; decide)
  have hn : ¬ (field w 25 3 = 0b000 ∧ flag w 7 = true ∧ flag w 4 = true) := by
    rintro ⟨h25, h7, h4⟩
    have h25' : flag w 25 = false := flag_of_field h25 0 (by decide)
    rw [h25', h7, h4] at hm
    revert hm
    decide
  rw [decodeConditional_lowSpace h26, decodeLowSpace, if_neg hn, if_neg fun e => h23 _ (by decide) (by decide) e.1,
    if_neg fun e => h23 _ (by decide) (by decide) e.1]

end

end Sys2Proof
end

section
/-!
Decoding a word that has the fields of an instruction's row gives the instruction.
-/
namespace Sys2Proof

section
variable {w : Word} {c : Cond}

/-! ## The rows, decoded -/

theorem decode_pldImm {u : Bool} {rn : Reg} {off : BitVec 12} (h : (Row.pldImm u rn off).Reads w) :
    decodeWord w = .ok (.pldImm u rn off) := by
  obtain ⟨h28, h26, h25, h24, h23, h20, h16, h12, h0⟩ := Row.pldImm_reads.1 h
  simp [decodeWord_unconditional h28, decodeUnconditional, *]

theorem decode_pldReg {u : Bool} {rn rm : Reg} {n : BitVec 5} {sh : Shift} (h : (Row.pldReg u rn n sh rm).Reads w) :
    decodeWord w = .ok (.pldReg u rn n sh rm) := by
  obtain ⟨h28, h26, h25, h24, h23, h20, h16, h12, h7, h5, h4, h0⟩ := Row.pldReg_reads.1 h
  simp [decodeWord_unconditional h28, decodeUnconditional, *]

theorem decode_blxImm {b : Bool} {imm : BitVec 24} (h : (Row.blxImm b imm).Reads w) :
    decodeWord w = .ok (.blxImm b imm) := by
  obtain ⟨h28, h25, h24, h0⟩ := Row.blxImm_reads.1 h
  have h26 : field w 26 2 = 0b10 := field_of_field h25 1 2 (by decide)
  simp [decodeWord_unconditional h28, decodeUnconditional, *]

theorem decode_accumulate {op3 : BitVec 4} {rs rm : Reg} (h : (Row.accumulate c op3 rs rm).Reads w) :
    decodeWord w = if op3 = 0b0000 then .ok (.mia c rs rm) else if op3 = 0b1000 then .ok (.miaph c rs rm)
      else if op3 = 0b1100 then .ok (.miabb c rs rm) else if op3 = 0b1101 then .ok (.miabt c rs rm)
      else if op3 = 0b1110 then .ok (.miatb c rs rm) else if op3 = 0b1111 then .ok (.miatt c rs rm)
      else .error .unpredictableOpcode3 := by
  obtain ⟨h28, h20, h16, h12, h8, h5, h4, h0⟩ := Row.accumulate_reads.1 h
  simp [decodeWord_conditional h28, decodeConditional_accumulate h20 h8 h4, decodeAccumulate, *]

theorem decode_accumulatorTransfer {l : Bool} {hi lo : Reg} (h : (Row.accumulatorTransfer c l hi lo).Reads w) :
    decodeWord w = .ok (if l then .mra c hi lo else .mar c hi lo) := by
  obtain ⟨h28, h21, h20, h16, h12, h8, h3, h0⟩ := Row.accumulatorTransfer_reads.1 h
  cases l <;> simp [decodeWord_conditional h28, decodeConditional_twoRegister h21, decodeTwoRegister, *]

theorem decode_coprocessorTransfer {l : Bool} {rn rd cp op crm : BitVec 4} (hcp : cp ≠ 0)
    (h : (Row.coprocessorTransfer c l rn rd cp op crm).Reads w) :
    decodeWord w = .ok (if l then .mrrc c rn rd cp op crm else .mcrr c rn rd cp op crm) := by
  obtain ⟨h28, h21, h20, h16, h12, h8, h4, h0⟩ := Row.coprocessorTransfer_reads.1 h
  cases l <;> simp_all [decodeWord_conditional h28, decodeConditional_twoRegister h21, decodeTwoRegister]

theorem decode_registerTransfer {l : Bool} {crn rd crm : BitVec 4} {op2 : BitVec 3}
    (h : (Row.registerTransfer c l crn rd op2 crm).Reads w) :
    decodeWord w = .ok (if l then .mrc c crn rd op2 crm else .mcr c crn rd op2 crm) := by
  obtain ⟨h28, h24, h21, h20, h16, h12, h8, h5, h4, h0⟩ := Row.registerTransfer_reads.1 h
  have h8' : field w 8 4 ≠ 0 := by rw [h8]; decide
  cases l <;>
  simp [decodeWord_conditional h28, decodeConditional_registerTransfer h24 h8' h4, decodeRegisterTransfer, *]

theorem decode_branch {l : Bool} {imm : BitVec 24} (h : (Row.branch c l imm).Reads w) :
    decodeWord w = .ok (if l then .bl c imm else .b c imm) := by
  obtain ⟨h28, h25, h24, h0⟩ := Row.branch_reads.1 h
  cases l <;> simp [decodeWord_conditional h28, decodeConditional_branch h25, *]

theorem decode_swi {imm : BitVec 24} (h : (Row.swi c imm).Reads w) : decodeWord w = .ok (.swi c imm) := by
  obtain ⟨h28, h24, h0⟩ := Row.swi_reads.1 h
  rw [decodeWord_conditional h28, decodeConditional_swi h24, h0]

section
variable {m : Index} {u l : Bool} {rn rd rm : Reg}

theorem decode_wordImm {off : BitVec 12} (h : (Row.wordImm c m u l rn rd off).Reads w) :
    decodeWord w = .ok (if l then .ldrImm c m u rn rd off else .strImm c m u rn rd off) := by
  obtain ⟨h28, h26, h25, h24, h23, h22, h21, h20, h16, h12, h0⟩ := Row.wordImm_reads.1 h
  cases l <;> simp [decodeWord_conditional h28, decodeConditional_wordTransfer h26, decodeWordTransfer, *]

theorem decode_wordReg {n : BitVec 5} {sh : Shift} (h : (Row.wordReg c m u l rn rd n sh rm).Reads w) :
    decodeWord w = .ok (if l then .ldrReg c m u rn rd n sh rm else .strReg c m u rn rd n sh rm) := by
  obtain ⟨h28, h26, h25, h24, h23, h22, h21, h20, h16, h12, h7, h5, h4, h0⟩ := Row.wordReg_reads.1 h
  cases l <;> simp [decodeWord_conditional h28, decodeConditional_wordTransfer h26, decodeWordTransfer, *]

theorem decode_mla {s : Bool} {rs : Reg} (h : (Row.mla c s rd rn rs rm).Reads w) :
    decodeWord w = .ok (.mla c s rd rn rs rm) := by
  obtain ⟨h28, h22, h21, h20, h16, h12, h8, h7, h5, h4, h0⟩ := Row.mla_reads.1 h
  have h25 : field w 25 3 = 0b000 := field_of_field h22 3 3 (by decide)
  simp [decodeWord_conditional h28, decodeConditional_multiplySwap h25 h7 h4 h5, decodeMultiplySwap, *]

theorem decode_swap {b : Bool} (h : (Row.swap c b rn rd rm).Reads w) :
    decodeWord w = .ok (if b then .swpb c rn rd rm else .swp c rn rd rm) := by
  obtain ⟨h28, h23, h22, h20, h16, h12, h8, h7, h5, h4, h0⟩ := Row.swap_reads.1 h
  have h25 : field w 25 3 = 0b000 := field_of_field h23 2 3 (by decide)
  have h24 : flag w 24 = true := flag_of_field h23 1 (by decide)
  have hmla : field w 22 6 ≠ 0#6 := field_ne_of_flag 2 h24 (by decide) (by decide)
  cases b <;> simp [decodeWord_conditional h28, decodeConditional_multiplySwap h25 h7 h4 h5, decodeMultiplySwap, *]

/-- LDRSH, LDRD and STRD go to their decoder: bits 6:5 are not those of the multiplies and swaps. -/
theorem decodeWord_extraTransfer {i : Bool} {op : BitVec 2} {hi lo : BitVec 4} (hop : op ≠ 0b00)
    (h : (Row.extraTransfer c m u i l rn rd hi op lo).Reads w) : decodeWord w = decodeExtraTransfer c w := by
  obtain ⟨h28, h25, _, _, _, _, _, _, _, _, h7, h5, h4, _⟩ := Row.extraTransfer_reads.1 h
  rw [decodeWord_conditional h28, decodeConditional_extraTransfer h25 h7 h4 (by rw [h5]; exact hop)]

theorem decode_ldrsh {i : Bool} {hi lo : BitVec 4} (hform : i = true ∨ hi = 0)
    (h : (Row.extraTransfer c m u i true rn rd hi 0b11 lo).Reads w) :
    decodeWord w = .ok (if i then .ldrshImm c m u rn rd (offsetOf hi lo) else .ldrshReg c m u rn rd lo) := by
  rw [decodeWord_extraTransfer (by decide) h]
  obtain ⟨_, _, h24, h23, h22, h21, h20, h16, h12, h8, h7, h5, h4, h0⟩ := Row.extraTransfer_reads.1 h
  cases i <;> simp_all [decodeExtraTransfer, offsetOf]

/-- Bit 5 tells LDRD from STRD; bit 12 is bit 0 of Rd, which is even. -/
theorem decode_double {st i : Bool} {hi lo : BitVec 4} (hform : i = true ∨ hi = 0) (heven : rd.getLsbD 0 = false)
    (h : (Row.extraTransfer c m u i false rn rd hi (if st then 0b11 else 0b10) lo).Reads w) :
    decodeWord w = .ok (
      if st then if i then .strdImm c m u rn rd (offsetOf hi lo) else .strdReg c m u rn rd lo
      else if i then .ldrdImm c m u rn rd (offsetOf hi lo) else .ldrdReg c m u rn rd lo) := by
  rw [decodeWord_extraTransfer (by cases st <;> decide) h]
  obtain ⟨_, _, h24, h23, h22, h21, h20, h16, h12, h8, h7, h5, h4, h0⟩ := Row.extraTransfer_reads.1 h
  have hodd : flag w 12 = false := (flag_of_field h12 0 (by decide)).trans heven
  have hstore : flag w 5 = st := (flag_of_field h5 0 (by decide)).trans (by cases st <;> rfl)
  cases i <;> cases st <;> simp_all [decodeExtraTransfer, offsetOf]

end

section
variable {a b rs rn rd rm : Reg} {y x : Half} {s r : Bool} {op4 rot mask : BitVec 4} {imm : BitVec 8} {n : BitVec 5}
  {sh : Shift}

theorem decode_halfMultiply {op : BitVec 2} (h : (Row.halfMultiply c op a b rs y.toBit x.toBit rm).Reads w) :
    decodeWord w = if op = 0b00 then .ok (.smla c a b rs y x rm) else if op = 0b10 then .ok (.smlal c a b rs y x rm)
      else if op = 0b11 then if b ≠ 0 then .error .fixedField else .ok (.smul c a rs y x rm)
      else if x.toBit then if b ≠ 0 then .error .fixedField else .ok (.smulw c a rs y rm)
      else .ok (.smlaw c a b rs y rm) := by
  obtain ⟨h28, h23, h21, h20, h16, h12, h8, h7, h6, h5, h4, h0⟩ := Row.halfMultiply_reads.1 h
  simp [decodeWord_conditional h28, decodeConditional_halfMultiply h23 h20 h7 h4, decodeHalfMultiply, *]

/-- The miscellaneous instructions have bit 7 clear, which the multiplies have set. -/
theorem decodeWord_miscellaneous {op : BitVec 4} (h28 : field w 28 4 = c.toBits) (h23 : field w 23 5 = 0b00010)
    (h20 : flag w 20 = false) (h4 : field w 4 4 = op) (hop : op.getLsbD 3 = false) :
    decodeWord w = decodeMiscellaneous c w := by
  rw [decodeWord_conditional h28,
    decodeConditional_miscellaneous h23 h20 ((flag_of_field h4 3 (by decide)).trans hop)]

theorem decode_saturating {op : BitVec 2} (h : (Row.saturating c op rn rd rm).Reads w) :
    decodeWord w = if op = 0b00 then .ok (.qadd c rn rd rm) else if op = 0b01 then .ok (.qsub c rn rd rm)
      else if op = 0b10 then .ok (.qdadd c rn rd rm) else .ok (.qdsub c rn rd rm) := by
  obtain ⟨h28, h23, h21, h20, h16, h12, h8, h4, h0⟩ := Row.saturating_reads.1 h
  simp [decodeWord_miscellaneous h28 h23 h20 h4 (by decide), decodeMiscellaneous, *]

theorem decode_bx (h : (Row.exchange c 0b0001 rm).Reads w) : decodeWord w = .ok (.bx c rm) := by
  obtain ⟨h28, h23, h21, h20, h8, h4, h0⟩ := Row.exchange_reads.1 h
  simp [decodeWord_miscellaneous h28 h23 h20 h4 (by decide), decodeMiscellaneous, *]

theorem decode_blxReg (h : (Row.exchange c 0b0011 rm).Reads w) : decodeWord w = .ok (.blxReg c rm) := by
  obtain ⟨h28, h23, h21, h20, h8, h4, h0⟩ := Row.exchange_reads.1 h
  simp [decodeWord_miscellaneous h28 h23 h20 h4 (by decide), decodeMiscellaneous, *]

theorem decode_clz (h : (Row.clz c rd rm).Reads w) : decodeWord w = .ok (.clz c rd rm) := by
  obtain ⟨h28, h23, h21, h20, h16, h12, h8, h4, h0⟩ := Row.clz_reads.1 h
  simp [decodeWord_miscellaneous h28 h23 h20 h4 (by decide), decodeMiscellaneous, *]

theorem decode_mrs (h : (Row.mrs c r rd).Reads w) : decodeWord w = .ok (.mrs c r rd) := by
  obtain ⟨h28, h23, h22, h21, h20, h16, h12, h0⟩ := Row.mrs_reads.1 h
  have h4 : field w 4 4 = 0b0000 := field_of_field h0 4 4 (by decide)
  simp [decodeWord_miscellaneous h28 h23 h20 h4 (by decide), decodeMiscellaneous, *]

theorem decode_msrReg (h : (Row.msrReg c r mask rm).Reads w) : decodeWord w = .ok (.msrReg c r mask rm) := by
  obtain ⟨h28, h23, h22, h21, h20, h16, h12, h8, h4, h0⟩ := Row.msrReg_reads.1 h
  simp [decodeWord_miscellaneous h28 h23 h20 h4 (by decide), decodeMiscellaneous, *]

theorem decode_msrImm (h : (Row.msrImm c r mask rot imm).Reads w) :
    decodeWord w = .ok (.msrImm c r mask rot imm) := by
  obtain ⟨h28, h23, h22, h20, h16, h12, h8, h0⟩ := Row.msrImm_reads.1 h
  simp [decodeWord_conditional h28, decodeConditional_msrImmediate h23 h20, decodeMsrImmediate, *]

theorem decode_dataImm {op : BitVec 4} (hop : op.getLsbD 3 = false ∨ op.getLsbD 2 = true)
    (h : (Row.dataImm c op s rn rd rot imm).Reads w) :
    decodeWord w = if op = 0b1101 then
        if rn = 0 then .ok (.movImm c s rd rot imm) else .error .fixedField
      else if op = 0b0100 then .ok (.addImm c s rn rd rot imm)
      else if op = 0b0010 then .ok (.subImm c s rn rd rot imm)
      else if op = 0b1100 then .ok (.orrImm c s rn rd rot imm) else .error .notAdmitted := by
  obtain ⟨h28, h26, h25, h21, h20, h16, h12, h8, h0⟩ := Row.dataImm_reads.1 h
  simp [decodeWord_conditional h28, decodeConditional_dataProcessing h26 h21 hop (.inl h25), decodeDataProcessing, *]

theorem decode_dataShiftImm {op : BitVec 4} (hop : op.getLsbD 3 = false ∨ op.getLsbD 2 = true)
    (h : (Row.dataShiftImm c op s rn rd n sh rm).Reads w) :
    decodeWord w = if op = 0b1101 then
        if rn = 0 then .ok (.movShiftImm c s rd n sh rm) else .error .fixedField
      else if op = 0b0100 then .ok (.addShiftImm c s rn rd n sh rm)
      else if op = 0b0010 then .ok (.subShiftImm c s rn rd n sh rm)
      else if op = 0b1100 then .ok (.orrShiftImm c s rn rd n sh rm) else .error .notAdmitted := by
  obtain ⟨h28, h26, h25, h21, h20, h16, h12, h7, h5, h4, h0⟩ := Row.dataShiftImm_reads.1 h
  simp [decodeWord_conditional h28, decodeConditional_dataProcessing h26 h21 hop (.inr (.inr h4)), decodeDataProcessing,
    *]

theorem decode_dataShiftReg {op : BitVec 4} (hop : op.getLsbD 3 = false ∨ op.getLsbD 2 = true)
    (h : (Row.dataShiftReg c op s rn rd rs sh rm).Reads w) :
    decodeWord w = if op = 0b1101 then
        if rn = 0 then .ok (.movShiftReg c s rd rs sh rm) else .error .fixedField
      else if op = 0b0100 then .ok (.addShiftReg c s rn rd rs sh rm)
      else if op = 0b0010 then .ok (.subShiftReg c s rn rd rs sh rm)
      else if op = 0b1100 then .ok (.orrShiftReg c s rn rd rs sh rm) else .error .notAdmitted := by
  obtain ⟨h28, h26, h25, h21, h20, h16, h12, h8, h7, h5, h4, h0⟩ := Row.dataShiftReg_reads.1 h
  simp [decodeWord_conditional h28, decodeConditional_dataProcessing h26 h21 hop (.inr (.inl h7)), decodeDataProcessing,
    *]

end

/-- A word with the fields of an instruction's row decodes to it. -/
theorem decodeWord_of_reads {i : Instr} (h : i.row.Reads w) (he : i.encodable = true) : decodeWord w = .ok i := by
  have even {rd : Reg} (h : (!rd.getLsbD 0) = true) : rd.getLsbD 0 = false := by simpa using h
  cases i with
  | pldImm u rn off => exact decode_pldImm h
  | pldReg u rn n sh rm => exact decode_pldReg h
  | blxImm b imm => exact decode_blxImm h
  | mia c rs rm => exact decode_accumulate h
  | miaph c rs rm => exact decode_accumulate h
  | miabb c rs rm => exact decode_accumulate h
  | miabt c rs rm => exact decode_accumulate h
  | miatb c rs rm => exact decode_accumulate h
  | miatt c rs rm => exact decode_accumulate h
  | mar c hi lo => exact decode_accumulatorTransfer h
  | mra c hi lo => exact decode_accumulatorTransfer h
  | mcrr c rn rd cp op crm => exact decode_coprocessorTransfer (bne_iff_ne.1 he) h
  | mrrc c rn rd cp op crm => exact decode_coprocessorTransfer (bne_iff_ne.1 he) h
  | mcr c crn rd op2 crm => exact decode_registerTransfer h
  | mrc c crn rd op2 crm => exact decode_registerTransfer h
  | b c imm => exact decode_branch h
  | bl c imm => exact decode_branch h
  | swi c imm => exact decode_swi h
  | ldrImm c m u rn rd off => exact decode_wordImm h
  | ldrReg c m u rn rd n sh rm => exact decode_wordReg h
  | strImm c m u rn rd off => exact decode_wordImm h
  | strReg c m u rn rd n sh rm => exact decode_wordReg h
  | mla c s rd rn rs rm => exact decode_mla h
  | swp c rn rd rm => exact decode_swap h
  | swpb c rn rd rm => exact decode_swap h
  | ldrshImm c m u rn rd off => exact offsetOf_nibbles off ▸ decode_ldrsh (.inl rfl) h
  | ldrshReg c m u rn rd rm => exact decode_ldrsh (.inr rfl) h
  | ldrdImm c m u rn rd off => exact offsetOf_nibbles off ▸ decode_double (st := false) (.inl rfl) (even he) h
  | ldrdReg c m u rn rd rm => exact decode_double (st := false) (.inr rfl) (even he) h
  | strdImm c m u rn rd off => exact offsetOf_nibbles off ▸ decode_double (st := true) (.inl rfl) (even he) h
  | strdReg c m u rn rd rm => exact decode_double (st := true) (.inr rfl) (even he) h
  | smla c rd rn rs y x rm => exact decode_halfMultiply h
  | smlaw c rd rn rs y rm => exact decode_halfMultiply (x := .bottom) h
  | smulw c rd rs y rm => exact decode_halfMultiply (x := .top) h
  | smlal c hi lo rs y x rm => exact decode_halfMultiply h
  | smul c rd rs y x rm => exact decode_halfMultiply h
  | qadd c rn rd rm => exact decode_saturating h
  | qsub c rn rd rm => exact decode_saturating h
  | qdadd c rn rd rm => exact decode_saturating h
  | qdsub c rn rd rm => exact decode_saturating h
  | bx c rm => exact decode_bx h
  | blxReg c rm => exact decode_blxReg h
  | clz c rd rm => exact decode_clz h
  | mrs c r rd => exact decode_mrs h
  | msrReg c r mask rm => exact decode_msrReg h
  | msrImm c r mask rot imm => exact decode_msrImm h
  | movImm c s rd rot imm => exact decode_dataImm (by decide) h
  | movShiftImm c s rd n sh rm => exact decode_dataShiftImm (by decide) h
  | movShiftReg c s rd rs sh rm => exact decode_dataShiftReg (by decide) h
  | addImm c s rn rd rot imm => exact decode_dataImm (by decide) h
  | addShiftImm c s rn rd n sh rm => exact decode_dataShiftImm (by decide) h
  | addShiftReg c s rn rd rs sh rm => exact decode_dataShiftReg (by decide) h
  | subImm c s rn rd rot imm => exact decode_dataImm (by decide) h
  | subShiftImm c s rn rd n sh rm => exact decode_dataShiftImm (by decide) h
  | subShiftReg c s rn rd rs sh rm => exact decode_dataShiftReg (by decide) h
  | orrImm c s rn rd rot imm => exact decode_dataImm (by decide) h
  | orrShiftImm c s rn rd n sh rm => exact decode_dataShiftImm (by decide) h
  | orrShiftReg c s rn rd rs sh rm => exact decode_dataShiftReg (by decide) h

end

end Sys2Proof
end

section
/-!
A word that decodes has the fields of the row of the instruction it decodes to.
-/
namespace Sys2Proof

/-- The code of a condition, read back; `0b1111` is no condition's (rule R28). -/
theorem Cond.ofBits_map_toBits (b : BitVec 4) (h : b ≠ 0xF) : (Cond.ofBits b).map Cond.toBits = some b := by
  revert b
  decide

theorem Cond.toBits_ofBits {b : BitVec 4} {c : Cond} (h : Cond.ofBits b = some c) : c.toBits = b := by
  have hb : b ≠ 0xF := by
    rintro rfl
    cases h
  have hc := Cond.ofBits_map_toBits b hb
  rw [h] at hc
  exact Option.some.inj hc

theorem Cond.ofBits_none {b : BitVec 4} (h : Cond.ofBits b = none) : b = 0xF := by
  by_contra hb
  have hc := Cond.ofBits_map_toBits b hb
  rw [h] at hc
  cases hc

@[simp] theorem Shift.toBits_ofBits (b : BitVec 2) : (Shift.ofBits b).toBits = b := by
  revert b
  decide

@[simp] theorem Half.toBit_ofBit (b : Bool) : (Half.ofBit b).toBit = b := by cases b <;> rfl

theorem Index.bits_ofBits {p w : Bool} {m : Index} (h : Index.ofBits p w = some m) : m.p = p ∧ m.w = w := by
  revert h
  cases p <;> cases w <;> cases m <;> decide

/-- A field is known by its bits. -/
theorem field_eq_of_flags {w : Word} {lo n : Nat} {v : BitVec n} (h : ∀ i, i < n → flag w (lo + i) = v.getLsbD i) :
    field w lo n = v :=
  BitVec.eq_of_getLsbD_eq fun i hi => (flag_of_field rfl i hi).symm.trans (h i hi)

/-- Every instruction a decoder answers at a word is one whose row the word has and which an encoding admits. -/
def Sound (w : Word) (r : Except DecodeError Instr) : Prop :=
  ∀ i, r = .ok i → i.row.Reads w ∧ i.encodable = true

section
variable {w : Word} {c : Cond}

theorem Sound.ite {p : Prop} [Decidable p] {a b : Except DecodeError Instr} (ha : p → Sound w a)
    (hb : ¬ p → Sound w b) : Sound w (if p then a else b) := by
  split
  · next h => exact ha h
  · next h => exact hb h

theorem Sound.error (e : DecodeError) : Sound w (.error e) :=
  fun _ h => by injection h

theorem Sound.ok {i : Instr} (h : i.row.Reads w) (he : i.encodable = true) : Sound w (.ok i) := by
  intro j hj
  rw [← Except.ok.inj hj]
  exact ⟨h, he⟩

theorem decodeUnconditional_sound (h28 : field w 28 4 = 0xF) : Sound w (decodeUnconditional w) := by
  unfold decodeUnconditional
  refine .ite (fun ⟨h26, h24, h20, h12⟩ => ?_) fun _ => ?_
  · exact .ite (fun h25 => .ite (fun _ => .error _) fun h4 =>
        .ok (Row.pldReg_reads.2 ⟨h28, h26, h25, h24, rfl, h20, rfl, h12, rfl, (Shift.toBits_ofBits _).symm,
          Bool.eq_false_iff.2 h4, rfl⟩) rfl)
      fun h25 => .ok (Row.pldImm_reads.2 ⟨h28, h26, Bool.eq_false_iff.2 h25, h24, rfl, h20, rfl, h12, rfl⟩) rfl
  · exact .ite (fun h25 => .ok (Row.blxImm_reads.2 ⟨h28, h25, rfl, rfl⟩) rfl) fun _ => .error _

variable (h28 : field w 28 4 = c.toBits)
include h28

theorem decodeAccumulate_sound (h20 : field w 20 8 = 0b11100010) (h8 : field w 8 4 = 0) (h4 : flag w 4 = true) :
    Sound w (decodeAccumulate c w) := by
  have row {op3} (h5 : ¬ field w 5 3 ≠ 0) (h16 : field w 16 4 = op3) :
      (Row.accumulate c op3 (field w 12 4) (field w 0 4)).Reads w :=
    Row.accumulate_reads.2 ⟨h28, h20, h16, rfl, h8, not_not.1 h5, h4, rfl⟩
  unfold decodeAccumulate
  exact .ite (fun _ => .error _) fun h5 =>
    .ite (fun h => .ok (row h5 h) rfl) fun _ =>
    .ite (fun h => .ok (row h5 h) rfl) fun _ =>
    .ite (fun h => .ok (row h5 h) rfl) fun _ =>
    .ite (fun h => .ok (row h5 h) rfl) fun _ =>
    .ite (fun h => .ok (row h5 h) rfl) fun _ =>
    .ite (fun h => .ok (row h5 h) rfl) fun _ => .error _

theorem decodeTwoRegister_sound (h21 : field w 21 7 = 0b1100010) : Sound w (decodeTwoRegister c w) := by
  have accumulator {l} (h20 : flag w 20 = l) (h8 : field w 8 4 = 0) (h3 : ¬ field w 3 5 ≠ 0) (h0 : ¬ field w 0 3 ≠ 0) :
      (Row.accumulatorTransfer c l (field w 16 4) (field w 12 4)).Reads w :=
    Row.accumulatorTransfer_reads.2 ⟨h28, h21, h20, rfl, rfl, h8, not_not.1 h3, not_not.1 h0⟩
  have coprocessor {l} (h20 : flag w 20 = l) : (Row.coprocessorTransfer c l (field w 16 4) (field w 12 4)
      (field w 8 4) (field w 4 4) (field w 0 4)).Reads w :=
    Row.coprocessorTransfer_reads.2 ⟨h28, h21, h20, rfl, rfl, rfl, rfl, rfl⟩
  unfold decodeTwoRegister
  refine .ite (fun h8 => ?_) fun h8 => ?_
  · exact .ite (fun _ => .error _) fun h3 => .ite (fun _ => .error _) fun h0 =>
      .ite (fun h20 => .ok (accumulator h20 h8 h3 h0) rfl) fun h20 =>
      .ok (accumulator (Bool.eq_false_iff.2 h20) h8 h3 h0) rfl
  · exact .ite (fun h20 => .ok (coprocessor h20) (bne_iff_ne.2 h8)) fun h20 =>
      .ok (coprocessor (Bool.eq_false_iff.2 h20)) (bne_iff_ne.2 h8)

theorem decodeRegisterTransfer_sound (h24 : field w 24 4 = 0b1110) (h4 : flag w 4 = true) :
    Sound w (decodeRegisterTransfer c w) := by
  have row {l} (h20 : flag w 20 = l) (h21 : ¬ field w 21 3 ≠ 0) (h8 : field w 8 4 = 15) :
      (Row.registerTransfer c l (field w 16 4) (field w 12 4) (field w 5 3) (field w 0 4)).Reads w :=
    Row.registerTransfer_reads.2 ⟨h28, h24, not_not.1 h21, h20, rfl, rfl, h8, rfl, h4, rfl⟩
  unfold decodeRegisterTransfer
  refine .ite (fun h8 => ?_) fun _ => ?_
  · exact .ite (fun _ => .error _) fun h21 => .ite (fun h20 => .ok (row h20 h21 h8) rfl) fun h20 =>
      .ok (row (Bool.eq_false_iff.2 h20) h21 h8) rfl
  · exact .ite (fun _ => .error _) fun _ => .ite (fun _ => .error _) fun _ => .error _

theorem decodeWordTransfer_sound (h26 : field w 26 2 = 0b01) : Sound w (decodeWordTransfer c w) := by
  unfold decodeWordTransfer
  refine .ite (fun _ => .error _) fun h22 => ?_
  split
  · exact .error _
  · next m hm =>
    obtain ⟨hp, hw⟩ := Index.bits_ofBits hm
    have imm {l} (h25 : ¬ flag w 25 = true) (h20 : flag w 20 = l) :
        (Row.wordImm c m (flag w 23) l (field w 16 4) (field w 12 4) (field w 0 12)).Reads w :=
      Row.wordImm_reads.2 ⟨h28, h26, Bool.eq_false_iff.2 h25, hp.symm, rfl, Bool.eq_false_iff.2 h22, hw.symm, h20, rfl,
        rfl, rfl⟩
    have reg {l} (h25 : flag w 25 = true) (h4 : ¬ flag w 4 = true) (h20 : flag w 20 = l) :
        (Row.wordReg c m (flag w 23) l (field w 16 4) (field w 12 4) (field w 7 5) (Shift.ofBits (field w 5 2))
          (field w 0 4)).Reads w :=
      Row.wordReg_reads.2 ⟨h28, h26, h25, hp.symm, rfl, Bool.eq_false_iff.2 h22, hw.symm, h20, rfl, rfl, rfl,
        (Shift.toBits_ofBits _).symm, Bool.eq_false_iff.2 h4, rfl⟩
    refine .ite (fun h25 => .ite (fun _ => .error _) fun h4 => ?_) fun h25 => ?_
    · exact .ite (fun h20 => .ok (reg h25 h4 h20) rfl) fun h20 => .ok (reg h25 h4 (Bool.eq_false_iff.2 h20)) rfl
    · exact .ite (fun h20 => .ok (imm h25 h20) rfl) fun h20 => .ok (imm h25 (Bool.eq_false_iff.2 h20)) rfl

theorem decodeMultiplySwap_sound (h7 : flag w 7 = true) (h4 : flag w 4 = true) (h5 : field w 5 2 = 0b00) :
    Sound w (decodeMultiplySwap c w) := by
  have swap {b} (h22 : flag w 22 = b) (h : field w 23 5 = 0b00010 ∧ field w 20 2 = 0) (h8 : ¬ field w 8 4 ≠ 0) :
      (Row.swap c b (field w 16 4) (field w 12 4) (field w 0 4)).Reads w :=
    Row.swap_reads.2 ⟨h28, h.1, h22, h.2, rfl, rfl, not_not.1 h8, h7, h5, h4, rfl⟩
  unfold decodeMultiplySwap
  refine .ite (fun h22 => ?_) fun _ => .ite (fun hs => ?_) fun _ => .error _
  · exact .ite (fun h21 => .ok (Row.mla_reads.2 ⟨h28, h22, h21, rfl, rfl, rfl, rfl, h7, h5, h4, rfl⟩) rfl)
      fun _ => .error _
  · exact .ite (fun _ => .error _) fun h8 => .ite (fun h22 => .ok (swap h22 hs h8) rfl) fun h22 =>
      .ok (swap (Bool.eq_false_iff.2 h22) hs h8) rfl

theorem decodeExtraTransfer_sound (h25 : field w 25 3 = 0b000) (h7 : flag w 7 = true) (h4 : flag w 4 = true)
    (h5 : field w 5 2 ≠ 0b00) : Sound w (decodeExtraTransfer c w) := by
  unfold decodeExtraTransfer
  split
  · exact .error _
  · next m hm =>
    obtain ⟨hp, hw⟩ := Index.bits_ofBits hm
    obtain ⟨hhi, hlo⟩ := nibbles_offsetOf (field w 8 4) (field w 0 4)
    have row {i l op hi lo} (h22 : flag w 22 = i) (h20 : flag w 20 = l) (hop : field w 5 2 = op)
        (hhi : field w 8 4 = hi) (hlo : field w 0 4 = lo) :
        (Row.extraTransfer c m (flag w 23) i l (field w 16 4) (field w 12 4) hi op lo).Reads w :=
      Row.extraTransfer_reads.2
        ⟨h28, h25, hp.symm, rfl, h22, hw.symm, h20, rfl, rfl, hhi, h7, hop, h4, hlo⟩
    have even (h12 : ¬ flag w 12 = true) : (!(field w 12 4).getLsbD 0) = true := by
      rw [← flag_of_field (w := w) (lo := 12) rfl 0 (by decide)]
      simpa using h12
    have op (h01 : ¬ field w 5 2 = 0b01) : field w 5 2 = if flag w 5 then 0b11 else 0b10 := by
      rw [show flag w 5 = (field w 5 2).getLsbD 0 from flag_of_field (lo := 5) rfl 0 (by decide)]
      revert h5 h01
      generalize field w 5 2 = v
      revert v
      decide
    refine .ite (fun h20 => .ite (fun h11 => ?_) fun _ => .error _) fun h20 => ?_
    · exact .ite (fun h22 => .ok (row h22 h20 h11 hhi.symm hlo.symm) rfl) fun h22 => .ite (fun _ => .error _) fun h8 =>
        .ok (row (Bool.eq_false_iff.2 h22) h20 h11 (not_not.1 h8) rfl) rfl
    have h20 : flag w 20 = false := Bool.eq_false_iff.2 h20
    refine .ite (fun _ => .error _) fun h01 => .ite (fun _ => .error _) fun h12 => .ite (fun hst => ?_) fun hst => ?_
    · have hop : field w 5 2 = 0b11 := (op h01).trans (if_pos hst)
      exact .ite (fun h22 => .ok (row h22 h20 hop hhi.symm hlo.symm) (even h12)) fun h22 =>
        .ite (fun _ => .error _) fun h8 => .ok (row (Bool.eq_false_iff.2 h22) h20 hop (not_not.1 h8) rfl) (even h12)
    · have hop : field w 5 2 = 0b10 := (op h01).trans (if_neg hst)
      exact .ite (fun h22 => .ok (row h22 h20 hop hhi.symm hlo.symm) (even h12)) fun h22 =>
        .ite (fun _ => .error _) fun h8 => .ok (row (Bool.eq_false_iff.2 h22) h20 hop (not_not.1 h8) rfl) (even h12)

theorem decodeHalfMultiply_sound (h23 : field w 23 5 = 0b00010) (h20 : flag w 20 = false) (h7 : flag w 7 = true)
    (h4 : flag w 4 = false) : Sound w (decodeHalfMultiply c w) := by
  have row {op b x} (h21 : field w 21 2 = op) (h12 : field w 12 4 = b) (h5 : flag w 5 = x) :
      (Row.halfMultiply c op (field w 16 4) b (field w 8 4) (Half.ofBit (flag w 6)).toBit x (field w 0 4)).Reads w :=
    Row.halfMultiply_reads.2 ⟨h28, h23, h21, h20, rfl, h12, rfl, h7, (Half.toBit_ofBit _).symm, h5, h4, rfl⟩
  have half : flag w 5 = (Half.ofBit (flag w 5)).toBit := (Half.toBit_ofBit _).symm
  have wide (h0 : ¬ field w 21 2 = 0b00) (h2 : ¬ field w 21 2 = 0b10) (h3 : ¬ field w 21 2 = 0b11) :
      field w 21 2 = 0b01 := by
    revert h0 h2 h3
    generalize field w 21 2 = v
    revert v
    decide
  unfold decodeHalfMultiply
  exact .ite (fun h0 => .ok (row h0 rfl half) rfl) fun h0 =>
    .ite (fun h2 => .ok (row h2 rfl half) rfl) fun h2 =>
    .ite (fun h3 => .ite (fun _ => .error _) fun h12 => .ok (row h3 (not_not.1 h12) half) rfl) fun h3 =>
    .ite (fun h5 => .ite (fun _ => .error _) fun h12 => .ok (row (wide h0 h2 h3) (not_not.1 h12) h5) rfl) fun h5 =>
    .ok (row (wide h0 h2 h3) rfl (Bool.eq_false_iff.2 h5)) rfl

theorem decodeMiscellaneous_sound (h23 : field w 23 5 = 0b00010) (h20 : flag w 20 = false) :
    Sound w (decodeMiscellaneous c w) := by
  have saturating {op} (h21 : field w 21 2 = op) (h8 : ¬ field w 8 4 ≠ 0) (h4 : field w 4 4 = 0b0101) :
      (Row.saturating c op (field w 16 4) (field w 12 4) (field w 0 4)).Reads w :=
    Row.saturating_reads.2 ⟨h28, h23, h21, h20, rfl, rfl, not_not.1 h8, h4, rfl⟩
  have last (h0 : ¬ field w 21 2 = 0b00) (h1 : ¬ field w 21 2 = 0b01) (h2 : ¬ field w 21 2 = 0b10) :
      field w 21 2 = 0b11 := by
    revert h0 h1 h2
    generalize field w 21 2 = v
    revert v
    decide
  have exchange {op} (h21 : field w 21 2 = 0b01) (h8 : field w 8 12 = 0xFFF) (h4 : field w 4 4 = op) :
      (Row.exchange c op (field w 0 4)).Reads w := Row.exchange_reads.2 ⟨h28, h23, h21, h20, h8, h4, rfl⟩
  unfold decodeMiscellaneous
  refine .ite (fun h5 => ?saturating) fun _ => .ite (fun h1 => ?bx) fun _ => .ite (fun h3 => ?blx) fun _ =>
    .ite (fun h0 => ?status) fun _ => .error _
  case saturating =>
    exact .ite (fun _ => .error _) fun h8 =>
      .ite (fun o0 => .ok (saturating o0 h8 h5) rfl) fun o0 =>
      .ite (fun o1 => .ok (saturating o1 h8 h5) rfl) fun o1 =>
      .ite (fun o2 => .ok (saturating o2 h8 h5) rfl) fun o2 => .ok (saturating (last o0 o1 o2) h8 h5) rfl
  case bx =>
    exact .ite (fun o1 => .ite (fun h8 => .ok (exchange o1 h8 h1) rfl) fun _ => .error _) fun _ =>
      .ite (fun o3 => .ite (fun hf => .ok (Row.clz_reads.2 ⟨h28, h23, o3, h20, hf.1, rfl, hf.2, h1, rfl⟩) rfl)
        fun _ => .error _) fun _ => .error _
  case blx =>
    exact .ite (fun o1 => .ite (fun h8 => .ok (exchange o1 h8 h3) rfl) fun _ => .error _) fun _ => .error _
  case status =>
    refine .ite (fun h21 => .ite (fun hf => ?_) fun _ => .error _) fun h21 => .ite (fun hf => ?_) fun _ => .error _
    · exact .ok (Row.msrReg_reads.2 ⟨h28, h23, rfl, h21, h20, rfl, hf.1, hf.2, h0, rfl⟩) rfl
    · exact .ok (Row.mrs_reads.2 ⟨h28, h23, rfl, Bool.eq_false_iff.2 h21, h20, hf.1, rfl, hf.2⟩) rfl

theorem decodeMsrImmediate_sound (h23 : field w 23 5 = 0b00110) (h20 : field w 20 2 = 0b10) :
    Sound w (decodeMsrImmediate c w) := by
  unfold decodeMsrImmediate
  exact .ite (fun h12 => .ok (Row.msrImm_reads.2 ⟨h28, h23, rfl, h20, rfl, h12, rfl, rfl⟩) rfl) fun _ => .error _

theorem decodeDataProcessing_sound (h26 : field w 26 2 = 0b00)
    (hn : ¬ (field w 25 3 = 0b000 ∧ flag w 7 = true ∧ flag w 4 = true)) : Sound w (decodeDataProcessing c w) := by
  have imm {op rn} (h25 : flag w 25 = true) (h21 : field w 21 4 = op) (h16 : field w 16 4 = rn) :
      (Row.dataImm c op (flag w 20) rn (field w 12 4) (field w 8 4) (field w 0 8)).Reads w :=
    Row.dataImm_reads.2 ⟨h28, h26, h25, h21, rfl, h16, rfl, rfl, rfl⟩
  have shiftImm {op rn} (h25 : ¬ flag w 25 = true) (h4 : ¬ flag w 4 = true) (h21 : field w 21 4 = op)
      (h16 : field w 16 4 = rn) : (Row.dataShiftImm c op (flag w 20) rn (field w 12 4) (field w 7 5)
        (Shift.ofBits (field w 5 2)) (field w 0 4)).Reads w :=
    Row.dataShiftImm_reads.2 ⟨h28, h26, Bool.eq_false_iff.2 h25, h21, rfl, h16, rfl, rfl, (Shift.toBits_ofBits _).symm,
      Bool.eq_false_iff.2 h4, rfl⟩
  have shiftReg {op rn} (h25 : ¬ flag w 25 = true) (h4 : flag w 4 = true) (h21 : field w 21 4 = op)
      (h16 : field w 16 4 = rn) : (Row.dataShiftReg c op (flag w 20) rn (field w 12 4) (field w 8 4)
        (Shift.ofBits (field w 5 2)) (field w 0 4)).Reads w := by
    have h25' : field w 25 3 = 0b000 := field_eq_of_flags fun i hi => by
      cases i with
      | zero => exact Bool.eq_false_iff.2 h25
      | succ i =>
        rw [show 25 + (i + 1) = 26 + i by omega, flag_of_field h26 i (by omega)]
        simp
    have h7 : flag w 7 = false := Bool.eq_false_iff.2 fun h7 => hn ⟨h25', h7, h4⟩
    exact Row.dataShiftReg_reads.2 ⟨h28, h26, Bool.eq_false_iff.2 h25, h21, rfl, h16, rfl, rfl, h7,
      (Shift.toBits_ofBits _).symm, h4, rfl⟩
  unfold decodeDataProcessing
  refine .ite (fun h25 => ?imm) fun h25 => .ite (fun h4 => ?shiftReg) fun h4 => ?shiftImm
  case imm =>
    exact .ite (fun mov => .ite (fun h16 => .ok (imm h25 mov h16) rfl) fun _ => .error _) fun _ =>
      .ite (fun add => .ok (imm h25 add rfl) rfl) fun _ =>
      .ite (fun sub => .ok (imm h25 sub rfl) rfl) fun _ =>
      .ite (fun orr => .ok (imm h25 orr rfl) rfl) fun _ => .error _
  case shiftReg =>
    exact .ite (fun mov => .ite (fun h16 => .ok (shiftReg h25 h4 mov h16) rfl) fun _ => .error _) fun _ =>
      .ite (fun add => .ok (shiftReg h25 h4 add rfl) rfl) fun _ =>
      .ite (fun sub => .ok (shiftReg h25 h4 sub rfl) rfl) fun _ =>
      .ite (fun orr => .ok (shiftReg h25 h4 orr rfl) rfl) fun _ => .error _
  case shiftImm =>
    exact .ite (fun mov => .ite (fun h16 => .ok (shiftImm h25 h4 mov h16) rfl) fun _ => .error _) fun _ =>
      .ite (fun add => .ok (shiftImm h25 h4 add rfl) rfl) fun _ =>
      .ite (fun sub => .ok (shiftImm h25 h4 sub rfl) rfl) fun _ =>
      .ite (fun orr => .ok (shiftImm h25 h4 orr rfl) rfl) fun _ => .error _

theorem decodeConditional_sound : Sound w (decodeConditional c w) := by
  unfold decodeConditional
  exact .ite (fun ⟨h20, h8, h4⟩ => decodeAccumulate_sound h28 h20 h8 h4) fun _ =>
    .ite (fun h21 => decodeTwoRegister_sound h28 h21) fun _ =>
    .ite (fun ⟨h24, h4⟩ => decodeRegisterTransfer_sound h28 h24 h4) fun _ =>
    .ite (fun h25 => .ite (fun h24 => .ok (Row.branch_reads.2 ⟨h28, h25, h24, rfl⟩) rfl) fun h24 =>
      .ok (Row.branch_reads.2 ⟨h28, h25, Bool.eq_false_iff.2 h24, rfl⟩) rfl) fun _ =>
    .ite (fun h24 => .ok (Row.swi_reads.2 ⟨h28, h24, rfl⟩) rfl) fun _ =>
    .ite (fun h26 => decodeWordTransfer_sound h28 h26) fun _ =>
    .ite (fun ⟨h25, h7, h4⟩ => .ite (fun h5 => decodeMultiplySwap_sound h28 h7 h4 h5) fun h5 =>
      decodeExtraTransfer_sound h28 h25 h7 h4 h5) fun hn =>
    .ite (fun ⟨h23, h20⟩ => .ite (fun ⟨h7, h4⟩ => decodeHalfMultiply_sound h28 h23 h20 h7 h4) fun _ =>
      decodeMiscellaneous_sound h28 h23 h20) fun _ =>
    .ite (fun ⟨h23, h20⟩ => decodeMsrImmediate_sound h28 h23 h20) fun _ =>
    .ite (fun h26 => decodeDataProcessing_sound h28 h26 hn) fun _ => .error _

omit h28

theorem decodeWord_sound (w : Word) : Sound w (decodeWord w) := by
  unfold decodeWord
  split
  · next h => exact decodeUnconditional_sound (Cond.ofBits_none h)
  · next c h => exact decodeConditional_sound (Cond.toBits_ofBits h).symm

end

/-- Settles O2: the encoder writes the row, a word with the row's fields decodes to the instruction, and a word that
decodes has the fields of its row. -/
theorem decodeAndEncodeAgree : Obligations.DecodeAndEncodeAgree := by
  refine ⟨fun i he => decodeWord_of_reads ((encode_eq_iff i _).1 rfl) he, fun w i h => ?_⟩
  obtain ⟨hr, he⟩ := decodeWord_sound w i h
  exact ⟨(encode_eq_iff i w).2 hr, he⟩

end Sys2Proof
end

section
/-!
The shifter operand, bit by bit (rule R148): what each kind of shift answers for each range of its amount, said once
for the immediate and the register forms.
-/
namespace Sys2Proof.Machine

/-- A shifter operand is a word shifted by an amount, with the carry of that shift. -/
structure ShiftsBy (sh : Shift) (w : Word) (n : Nat) (c : Bool) (op : Shifted) : Prop where
  bits : ∀ i, i < 32 → op.value.getLsbD i = shiftBit sh w n i
  carry : op.carry = shiftCarry sh w n c

section
variable {sh : Shift} {w : Word} {n : Nat} {c : Bool}

/-- An amount of zero leaves the word and the carry. -/
theorem ShiftsBy.zero : ShiftsBy sh w 0 c ⟨w, c⟩ where
  bits i hi := by
    cases sh with
    | lsl => simp [shiftBit]
    | lsr => rfl
    | asr => simp [shiftBit, hi]
    | ror => simp [shiftBit, Nat.mod_eq_of_lt hi]
  carry := rfl

theorem ShiftsBy.lsl (h0 : n ≠ 0) (h : n ≤ 32) : ShiftsBy .lsl w n c ⟨w <<< n, w.getLsbD (32 - n)⟩ where
  bits _ hi := shiftLeft_bit w n hi
  carry := by simp [shiftCarry, h0, h]

theorem ShiftsBy.lsl_past (h : 32 < n) : ShiftsBy .lsl w n c ⟨0, false⟩ where
  bits i hi := by simp [shiftBit, show ¬ n ≤ i by omega]
  carry := by simp [shiftCarry, show n ≠ 0 by omega, show ¬ n ≤ 32 by omega]

theorem ShiftsBy.lsr (h0 : n ≠ 0) : ShiftsBy .lsr w n c ⟨w >>> n, w.getLsbD (n - 1)⟩ where
  bits i _ := by simp [shiftBit, Nat.add_comm n i]
  carry := by simp [shiftCarry, h0]

/-- By 32 and more LSL and LSR shift every bit out. -/
theorem shift_all_out {k : Nat} (h : 32 ≤ k) : w <<< k = 0 ∧ w >>> k = 0 :=
  ⟨BitVec.shiftLeft_eq_zero h, BitVec.ushiftRight_eq_zero h⟩

theorem ShiftsBy.lsr_past (h : 32 < n) : ShiftsBy .lsr w n c ⟨0, false⟩ := by
  have hs := ShiftsBy.lsr (w := w) (c := c) (n := n) (by omega)
  rwa [(shift_all_out (w := w) (k := n) (by omega)).2, BitVec.getLsbD_of_ge w (n - 1) (by omega)] at hs

theorem ShiftsBy.asr (h0 : n ≠ 0) (h : n < 32) : ShiftsBy .asr w n c ⟨w.sshiftRight n, w.getLsbD (n - 1)⟩ where
  bits _ hi := sshiftRight_bit w n hi
  carry := by simp [shiftCarry, h0, h]

/-- By 32 and more ASR fills the word with its sign. -/
theorem ShiftsBy.asr_past (h : 32 ≤ n) : ShiftsBy .asr w n c ⟨w.sshiftRight 32, w.getLsbD 31⟩ where
  bits i hi := by
    rw [sshiftRight_bit w 32 hi, if_neg (by omega)]
    exact (if_neg (by omega)).symm
  carry := by simp [shiftCarry, show n ≠ 0 by omega, show ¬ n < 32 by omega]

/-- ROR depends on the amount modulo 32 (rule R148). -/
theorem ShiftsBy.ror (h0 : n % 32 ≠ 0) :
    ShiftsBy .ror w n c ⟨w.rotateRight (n % 32), w.getLsbD (n % 32 - 1)⟩ where
  bits i hi := by
    rw [rotateRight_bit w _ hi, Nat.add_mod_mod]
    rfl
  carry := by
    simp [shiftCarry, show n ≠ 0 by omega, show (n - 1) % 32 = n % 32 - 1 by omega]

theorem ShiftsBy.ror_whole (h0 : n ≠ 0) (h : n % 32 = 0) : ShiftsBy .ror w n c ⟨w, w.getLsbD 31⟩ where
  bits i hi := by simp [shiftBit, show (i + n) % 32 = i by omega]
  carry := by simp [shiftCarry, h0, show (n - 1) % 32 = 31 by omega]

end

section
variable (sh : Shift) (w rs : Word) (n : BitVec 5) (c : Bool)

/-- Form (c): the amount is bits 7:0 of a register. -/
theorem shiftByRegister_shifts : ShiftsBy sh w (rs.toNat % 256) c (shiftByRegister sh w rs c) := by
  have hn : (rs.extractLsb' 0 8).toNat = rs.toNat % 256 := by simp [BitVec.extractLsb'_toNat]
  unfold shiftByRegister
  simp only [hn]
  generalize rs.toNat % 256 = k
  by_cases h0 : k = 0
  · subst h0
    cases sh <;> exact .zero
  cases sh with
  | lsl =>
    simp only [if_neg h0]
    split
    · exact .lsl h0 (by omega)
    · split
      · next h32 =>
        subst h32
        have hs := ShiftsBy.lsl (w := w) (c := c) h0 (Nat.le_refl 32)
        rwa [(shift_all_out (Nat.le_refl 32)).1] at hs
      · exact .lsl_past (by omega)
  | lsr =>
    simp only [if_neg h0]
    split
    · exact .lsr h0
    · split
      · next h32 =>
        subst h32
        have hs := ShiftsBy.lsr (w := w) (c := c) h0
        rwa [(shift_all_out (Nat.le_refl 32)).2] at hs
      · exact .lsr_past (by omega)
  | asr =>
    simp only [if_neg h0]
    split
    · next h32 => exact .asr h0 h32
    · exact .asr_past (by omega)
  | ror =>
    simp only [if_neg h0]
    split
    · next h32 => exact .ror_whole h0 h32
    · next h32 => exact .ror h32

/-- Form (b): an immediate amount; zero stands for itself with LSL only. -/
theorem shiftByImmediate_shifts (h : n ≠ 0 ∨ sh = .lsl) : ShiftsBy sh w n.toNat c (shiftByImmediate sh w n c) := by
  have hlt : n.toNat < 32 := n.isLt
  unfold shiftByImmediate
  by_cases h0 : n = 0
  · subst h0
    obtain rfl := h.resolve_left fun h => h rfl
    exact .zero
  have hne : n.toNat ≠ 0 := fun e => h0 (BitVec.eq_of_toNat_eq e)
  simp only [if_neg hne]
  cases sh with
  | lsl => exact .lsl hne (by omega)
  | lsr => exact .lsr hne
  | asr => exact .asr hne hlt
  | ror =>
    have hs := ShiftsBy.ror (w := w) (c := c) (n := n.toNat) (by omega)
    rwa [Nat.mod_eq_of_lt hlt] at hs

/-- Form (b): the amount zero stands for 32 with LSR and ASR. -/
theorem shiftByImmediate_zero (h : sh = .lsr ∨ sh = .asr) : ShiftsBy sh w 32 c (shiftByImmediate sh w 0 c) := by
  rcases h with rfl | rfl
  · have hs := ShiftsBy.lsr (w := w) (c := c) (n := 32) (by decide)
    rwa [(shift_all_out (Nat.le_refl 32)).2] at hs
  · exact .asr_past (Nat.le_refl 32)

/-- Form (b): the amount zero stands for RRX with ROR, a rotation through the carry. -/
theorem shiftByImmediate_rrx_bit {i : Nat} (hi : i < 32) :
    (shiftByImmediate .ror w 0 c).value.getLsbD i = ((c && decide (i = 31)) || w.getLsbD (i + 1)) := by
  show (bitAt c 31 ||| (w >>> 1)).getLsbD i = _
  rw [BitVec.getLsbD_or, bitAt_bit c 31 hi, BitVec.getLsbD_ushiftRight, Nat.add_comm 1 i]

/-- Form (a): an 8-bit immediate rotated right by twice the rotate field. -/
theorem immediateOperand_bit (rot : BitVec 4) (imm : BitVec 8) {i : Nat} (hi : i < 32) :
    (immediateOperand rot imm c).value.getLsbD i = (imm.setWidth 32).getLsbD ((i + 2 * rot.toNat) % 32) :=
  rotateRight_bit _ _ hi

end

/-- Settles O17: each form is the shift by its amount; RRX apart, bit by bit. -/
theorem shifterOperandBitByBit : Obligations.ShifterOperandBitByBit := by
  refine ⟨fun rot imm c => ⟨fun i hi => immediateOperand_bit c rot imm hi, rfl⟩, fun sh w rs c => ?_,
    fun sh w n c h => ?_, fun sh w c h => ?_, fun w c => ⟨fun i hi => ?_, ?_, rfl⟩⟩
  · obtain ⟨hb, hc⟩ := shiftByRegister_shifts sh w rs c
    exact ⟨hb, hc⟩
  · obtain ⟨hb, hc⟩ := shiftByImmediate_shifts sh w n c h
    exact ⟨hb, hc⟩
  · obtain ⟨hb, hc⟩ := shiftByImmediate_zero sh w c h
    exact ⟨hb, hc⟩
  · rw [shiftByImmediate_rrx_bit w c (by omega)]
    simp [show i ≠ 31 by omega]
  · rw [shiftByImmediate_rrx_bit w c (by decide), BitVec.getLsbD_of_ge w (31 + 1) (by decide)]
    simp

end Sys2Proof.Machine
end

section
/-!
The steps that stop by name (rules R157, R310; decisions D2, D3, D7).
-/
namespace Sys2Proof.Machine

/-- A word that stands for no instruction stops the instruction's part of the step (decision D2). -/
theorem runInstruction_undecodable {s u : State} {w : Word} {e : DecodeError} (hf : s.ageOwed.fetch = .word u w)
    (hw : decodeWord w = .error e) : runInstruction s = .refused (.undecodable e) := by
  unfold runInstruction
  rw [hf]
  simp only [hw]

/-- A step at which no exception is taken: Thumb state has no meaning (decision D3), ARM state runs an instruction. -/
theorem step_of_no_exception {s t : State} (hp : s.pastTop = false) (hl : landPending s.now.land s = some t)
    (hm : psrMode t.cpsr ≠ none) (hb : t.boundaryException = none) :
    step s = if t.thumb then .refused .thumbState else runInstruction t := by
  rw [step_landed hp hl hm, hb]

/-- Settles O4: no exception is taken, so the step is the fetched word's, which has no meaning, or Thumb state's. -/
theorem stepsWithoutMeaning : Obligations.StepsWithoutMeaning := by
  refine ⟨fun s t u w e hp hl hm hb hT hf hw => ?_, fun s hp => ?_, fun s t hp hl hm hb hT => ?_⟩
  · rw [step_of_no_exception hp hl hm hb, if_neg (by rw [hT]; decide), runInstruction_undecodable hf hw]
  · exact if_pos hp
  · rw [step_of_no_exception hp hl hm hb, if_pos hT]

end Sys2Proof.Machine
end

section
/-!
LDR and STR that complete (rules R149, R280, R281).
-/
namespace Sys2Proof.Machine
section
variable {s : State} {a : Access} {ea : Address} {rn rd : Reg}

/-- An aligned load in a quiet environment reads the word in memory. -/
theorem loadWord_quiet (hal : ea.address.toNat % 4 = 0) (q : s.NoDataError)
    (ht : dataTranslate false ea.address ea.address s = .ok a) :
    loadWord ea.address s = .ok (a.state, Memory.readWord s.mem a.pa.toNat) := by
  obtain ⟨_, hm, _⟩ := dataTranslate_like ht
  have qa : a.state.NoDataError := dataTranslate_quiet ht q
  rw [loadWord_eq hal ht, State.owe_quiet qa, State.loaded_quiet qa, hm]

/-- LDR of a register below R15, in a quiet environment. -/
theorem loadRegister_completes (hal : ea.address.toNat % 4 = 0) (q : s.NoDataError)
    (ht : dataTranslate false ea.address ea.address s = .ok a) (hr : rd ≠ Reg.pc)
    (hw : ea.writeback ≠ none → rn ≠ Reg.pc ∧ rn ≠ rd) :
    ∃ t, s.loadRegister rn rd ea = .next t ∧ t.reg rd = Memory.readWord s.mem a.pa.toNat
      ∧ BaseAfter rn ea t ∧ t.cpsr = s.cpsr ∧ Advanced s t
      ∧ AccessFrame (writtenWith rn ea [rd]) 0 0 a.state s t ∧ t.stored = s.stored ∧ t.dirty = s.dirty
      ∧ t.subWord = s.subWord := by
  obtain ⟨hl, hm, ho, hst, hd, hsub⟩ := dataTranslate_like ht
  obtain ⟨t, hx, hv, hb, hc, hadv, hf, hst', hd', hsub'⟩ :=
    load_spec (v := Memory.readWord s.mem a.pa.toNat) hl ho hm hw hr
  refine ⟨t, ?_, hv, hb, hc, hadv, hf, hst'.trans hst, hd'.trans hd, hsub'.trans hsub⟩
  unfold State.loadRegister
  rw [loadWord_quiet hal q ht, ← hx]
  exact if_neg hr

/-- What LDR of R15 does, in a quiet environment: the base is written back, and the word read goes to BX's transfer. -/
theorem loadRegister_pc_eq (hal : ea.address.toNat % 4 = 0) (q : s.NoDataError)
    (ht : dataTranslate false ea.address ea.address s = .ok a) :
    s.loadRegister rn Reg.pc ea = (a.state.writeBack rn ea).exchangeBranch (Memory.readWord s.mem a.pa.toNat) := by
  unfold State.loadRegister
  rw [loadWord_quiet hal q ht]
  exact if_pos rfl

/-- LDR of R15 transfers control, in a quiet environment. -/
theorem loadRegister_pc_completes {v : Word} (hal : ea.address.toNat % 4 = 0) (q : s.NoDataError)
    (ht : dataTranslate false ea.address ea.address s = .ok a) (hv : v = Memory.readWord s.mem a.pa.toNat)
    (h4 : v.toNat % 4 ≠ 2) (hw : ea.writeback ≠ none → rn ≠ Reg.pc) :
    ∃ t, s.loadRegister rn Reg.pc ea = .next t ∧ t.pc.toNat = v.toNat / 2 * 2 ∧ t.pastTop = false
      ∧ t.thumb = v.getLsbD 0 ∧ (∀ k, k ≠ 5 → t.cpsr.getLsbD k = s.cpsr.getLsbD k) ∧ BaseAfter rn ea t
      ∧ AccessFrame (writtenWith rn ea []) 0 0 a.state s t ∧ t.stored = s.stored ∧ t.dirty = s.dirty
      ∧ t.subWord = s.subWord := by
  obtain ⟨hl, hm, ho, hst, hd, hsub⟩ := dataTranslate_like ht
  obtain ⟨t, hx, hpc, htop, hT, hbits, hkeep⟩ := State.exchangeBranch_spec (a.state.writeBack rn ea) h4
  rw [State.writeBack_cpsr, hl.cpsr_eq] at hbits
  have hgpr : t.gpr = writeBackPlace s.gpr s.mode rn ea := by
    rw [hkeep, State.writeBack_eq hw, hl.gpr_eq, hl.mode_eq]
  have hrest : t = { a.state with gpr := t.gpr, cpsr := t.cpsr, pc := t.pc, pastTop := t.pastTop } := by
    rw [State.writeBack_eq hw] at hkeep
    rw [hkeep]
  refine ⟨t, ?_, hpc, htop, hT, hbits, .writeBack (State.mode_of_low fun j hj => hbits j (by omega)) hgpr hw,
    .of_step hl ho (.writeBack hgpr) (.of_mem (by rw [hrest]; exact hm)) ⟨_, _, _, _, hrest⟩,
    by rw [hrest]; exact hst, by rw [hrest]; exact hd, by rw [hrest]; exact hsub⟩
  rw [loadRegister_pc_eq hal q ht, ← hv, hx]

/-- STR at an address, in a quiet environment. -/
theorem storeRegister_completes (hal : ea.address.toNat % 4 = 0) (q : s.NoDataError) (hcan : s.MemoryCanonical)
    (ht : dataTranslate true ea.address ea.address s = .ok a) (hw : ea.writeback ≠ none → rn ≠ Reg.pc) :
    ∃ t, s.storeRegister rn rd ea = .next t ∧ Memory.readWord t.mem a.pa.toNat = s.storeValue rd
      ∧ BaseAfter rn ea t ∧ t.cpsr = s.cpsr ∧ Advanced s t
      ∧ AccessFrame (writtenWith rn ea []) a.pa.toNat 4 a.state s t ∧ t.subWord = s.subWord := by
  obtain ⟨_, hm, _, _, _, hsub⟩ := dataTranslate_like ht
  have qa : a.state.NoDataError := dataTranslate_quiet ht q
  have hfits : a.pa.toNat + 4 ≤ Memory.size := word_fits ((dataTranslate_mod_four ht).trans hal)
  have hdone := (Accessing.start (first := a.pa.toNat) (n := 4) ht).storeBytes (bs := bytesOfWord (s.storeValue rd))
    (Nat.le_refl _) (Nat.le_refl _)
  obtain ⟨t, hx, hb, hc, hadv, hf, htm, hts⟩ := store_spec hdone.step hdone.owed hdone.memory hw
  have hmem : t.mem = Memory.writeWord s.mem a.pa.toNat (s.storeValue rd) := by
    rw [htm, ← hm]
    exact storeWord_mem_quiet qa _ _ _
  refine ⟨t, ?_, by rw [hmem]; exact Memory.readWord_writeWord hcan hfits _, hb, hc, hadv,
    hf.of_dtlb hdone.dtlb, hts.trans hsub⟩
  unfold State.storeRegister
  rw [storeWordAt_eq hal ht, State.owe_quiet (storeWord_quiet qa _ _ _), ← hx]
  rfl

/-- The value STR stores (rule R281, log 33). -/
theorem State.storeValue_cases (s : State) (rd : Reg) :
    (rd ≠ Reg.pc → s.storeValue rd = s.reg rd)
      ∧ (rd = Reg.pc → s.storeValue rd = s.pc + 8 ∨ s.storeValue rd = s.pc + 12) := by
  unfold State.storeValue
  refine ⟨fun h => if_neg h, fun h => ?_⟩
  rw [if_pos h]
  cases Config.storePcPlus12
  · exact .inl rfl
  · exact .inr rfl

end

/-- Settles O33: LDR in both its forms is the load of a register, R15 apart. -/
theorem ldrLoadsWord : Obligations.LdrLoadsWord := by
  intro i c m u rn rd ea s a v hi hc hp hal q ht hv
  have hx : exec i s = s.loadRegister rn rd ea ∧ (ea.writeback ≠ none → rn ≠ Reg.pc ∧ rn ≠ rd) := by
    rcases hi with ⟨off, rfl, rfl⟩ | ⟨n, sh, rm, rfl, rfl⟩ <;>
    exact ⟨(conditional_true hc).trans (predictably_true hp), basePredictable_writeback hp⟩
  obtain ⟨hx, hw⟩ := hx
  rw [hx]
  refine ⟨fun hr => ?_, fun hr h4 => ?_, fun hr h4 => ?_⟩
  · rw [hv]
    exact loadRegister_completes hal q ht hr hw
  · rw [hr]
    exact loadRegister_pc_completes hal q ht hv h4 fun h => (hw h).1
  · rw [hr, loadRegister_pc_eq hal q ht, ← hv]
    exact State.exchangeBranch_refused _ h4

/-- Settles O34: STR in both its forms is the store of a register's value. -/
theorem strStoresWord : Obligations.StrStoresWord := by
  intro i c m u rn rd ea s a hi hc hp hal q hcan ht
  have hx : exec i s = s.storeRegister rn rd ea ∧ (ea.writeback ≠ none → rn ≠ Reg.pc) := by
    rcases hi with ⟨off, rfl, rfl⟩ | ⟨n, sh, rm, rfl, rfl⟩ <;>
    exact ⟨(conditional_true hc).trans (predictably_true hp), fun h => (basePredictable_writeback hp h).1⟩
  obtain ⟨hx, hw⟩ := hx
  obtain ⟨t, ht', hmem, rest⟩ := storeRegister_completes (rd := rd) hal q hcan ht hw
  obtain ⟨hbelow, hpc⟩ := s.storeValue_cases rd
  rw [← hmem] at hbelow hpc
  exact ⟨t, hx.trans ht', hbelow, hpc, rest⟩

end Sys2Proof.Machine
end

section
/-!
The words the spec writes out, and the words of the DSP-enhanced multiplies and of the saturating arithmetic (rule
R152): each is the word the encoder writes, and a word the encoder writes decodes.
-/
namespace Sys2Proof

/-- A word with the value the encoder writes for an instruction decodes to it. -/
theorem decodeWord_of_code {i : Instr} {w : Word} (he : i.encodable = true) (h : w.toNat = i.code) :
    decodeWord w = .ok i := by
  have hw : w = encode i := by
    apply BitVec.eq_of_toNat_eq
    rw [encode, BitVec.toNat_ofNat, ← h, Nat.mod_eq_of_lt w.isLt]
  rw [hw]
  exact decodeAndEncodeAgree.1 i he

/-- The four bytes of a word, in the decoder's terms. -/
theorem wordOfBytes_extract (v : Word) :
    wordOfBytes (v.extractLsb' 0 8) (v.extractLsb' 8 8) (v.extractLsb' 16 8) (v.extractLsb' 24 8) = v :=
  Machine.Memory.wordOfBytes_bytes v

/-- The number the encoder writes is a word (rule R140). -/
theorem Instr.code_lt (i : Instr) : i.code < 2 ^ 32 := by
  rw [← i.row_code, ← i.row_width]
  exact i.row.code_lt

/-- A row's word that the encoder writes for an instruction decodes to it. -/
theorem decodeTableWord_code {i : Instr} (he : i.encodable = true) : decodeTableWord 32 i.code = some i := by
  have hw : (BitVec.ofNat 32 (i.code % 2 ^ 32)).toNat = i.code := by
    rw [BitVec.toNat_ofNat, Nat.mod_mod, Nat.mod_eq_of_lt i.code_lt]
  simp only [decodeTableWord, decodeBytes, wordOfBytes_extract, decodeWord_of_code he hw]

/-- Settles O1: each word is the one the encoder writes for the instruction. -/
theorem decodesSpecWords : Obligations.DecodesSpecWords :=
  ⟨decodeTableWord_code (i := .movImm .al false 9 0 0) rfl,
    decodeTableWord_code (i := .movShiftImm .al true 0 0 .lsl 1) rfl,
    decodeTableWord_code (i := .addShiftImm .al false 9 9 0 .lsl 3) rfl,
    decodeTableWord_code (i := .orrImm .al false 0 0 0 1) rfl,
    decodeTableWord_code (i := .subImm .al false 15 15 0 4) rfl,
    decodeTableWord_code (i := .ldrImm .al .offset true 0 1 4) rfl,
    decodeTableWord_code (i := .b .ne 0xFFFFF9) rfl,
    decodeTableWord_code (i := .pldImm true 1 0) rfl,
    decodeTableWord_code (i := .mrc .al 2 0 0 0) rfl,
    decodeTableWord_code (i := .mcr .al 8 1 1 6) rfl,
    decodeTableWord_code (i := .mar .al 1 0) rfl,
    decodeTableWord_code (i := .mra .al 1 0) rfl,
    decodeTableWord_code (i := .miabt .al 3 2) rfl⟩

section
variable (c : Cond) (op : BitVec 8) (a b rs rm : Reg) (y x : Half)

/-- The value of a word in the format of the signed 16-bit multiplies (rule R152). -/
theorem halfMultiplyBits_toNat :
    (c.toBits ++ op ++ a ++ b ++ rs ++ 1#1 ++ BitVec.ofBool (Half.toBit y) ++ BitVec.ofBool (Half.toBit x) ++ 0#1
        ++ rm).toNat
      = op.toNat * 2 ^ 20 + 0x80 + put c.toBits 28 + put a 16 + put b 12 + put rs 8 + putBit y.toBit 6
        + putBit x.toBit 5 + put rm 0 := by
  simp only [Machine.append_toNat, put, putBit, BitVec.toNat_ofNat, BitVec.toNat_ofBool]
  omega

/-- The value of a word in the same format whose bits 5 and 4 are fixed. -/
theorem wordMultiplyBits_toNat (low : BitVec 2) :
    (c.toBits ++ op ++ a ++ b ++ rs ++ 1#1 ++ BitVec.ofBool (Half.toBit y) ++ low ++ rm).toNat
      = op.toNat * 2 ^ 20 + 0x80 + low.toNat * 2 ^ 4 + put c.toBits 28 + put a 16 + put b 12 + put rs 8
        + putBit y.toBit 6 + put rm 0 := by
  simp only [Machine.append_toNat, put, putBit, BitVec.toNat_ofNat, BitVec.toNat_ofBool]
  omega

/-- The value of a word in the format of the saturating arithmetic (rule R152). -/
theorem saturatingBits_toNat :
    (c.toBits ++ op ++ a ++ b ++ 0x05#8 ++ rm).toNat
      = op.toNat * 2 ^ 20 + 0x50 + put c.toBits 28 + put a 16 + put b 12 + put rm 0 := by
  simp only [Machine.append_toNat, put, BitVec.toNat_ofNat]
  omega

/-- A field of zeros contributes nothing to the word. -/
theorem put_zero (n lo : Nat) : put (0#n) lo = 0 := by simp [put]

/-- The word of SMULW<y> (rule R186). -/
theorem decodeWord_smulw :
    decodeWord (c.toBits ++ 0x12#8 ++ a ++ 0#4 ++ rs ++ 1#1 ++ BitVec.ofBool (Half.toBit y) ++ 0b10#2 ++ rm)
      = .ok (.smulw c a rs y rm) :=
  decodeWord_of_code (i := .smulw c a rs y rm) rfl
    ((wordMultiplyBits_toNat c 0x12 a 0#4 rs rm y 0b10).trans (by rw [put_zero, Nat.add_zero]; rfl))

/-- The word of SMUL<x><y> (rule R185). -/
theorem decodeWord_smul :
    decodeWord (c.toBits ++ 0x16#8 ++ a ++ 0#4 ++ rs ++ 1#1 ++ BitVec.ofBool (Half.toBit y)
      ++ BitVec.ofBool (Half.toBit x) ++ 0#1 ++ rm) = .ok (.smul c a rs y x rm) :=
  decodeWord_of_code (i := .smul c a rs y x rm) rfl
    ((halfMultiplyBits_toNat c 0x16 a 0#4 rs rm y x).trans (by rw [put_zero, Nat.add_zero]; rfl))

end

end Sys2Proof
end

section
/-!
The DSP-enhanced multiplies and the saturating arithmetic (rules R181 to R190): what is written when an exact value is
wrapped or clamped, and each instruction as one of these.
-/
namespace Sys2Proof.Machine

/-! ## Exact values and the signed 32-bit range (rule R11) -/

theorem fits32_of_bounds {e : Int} (h1 : -2147483648 ≤ e) (h2 : e ≤ 2147483647) : fits32 e = true := by
  simp [fits32, minInt32, maxInt32, h1, h2]

theorem sat32_ne_iff (e : Int) : sat32 e ≠ e ↔ (!fits32 e) = true := by
  rw [sat32_eq, fits32_false_iff]
  omega

/-- The product of two halves fits a word (rules R182, R185). -/
theorem halfProduct_fits (x y : Half) (v w : Word) : fits32 (halfProduct x v y w) = true := by
  obtain ⟨h1, h2⟩ := halfProduct_bounds x y v w
  exact fits32_of_bounds (by omega) (by omega)

/-- Bits 47:16 of the product of a word and a half (rules R183, R186). -/
theorem wordHalfProduct_high_bounds (y : Half) (v w : Word) :
    -2147483648 ≤ wordHalfProduct v y w / 65536 ∧ wordHalfProduct v y w / 65536 ≤ 2147483647 := by
  obtain ⟨h1, h2⟩ := wordHalfProduct_bounds y v w
  omega

theorem wordHalfProduct_high_fits (y : Half) (v w : Word) : fits32 (wordHalfProduct v y w / 65536) = true := by
  obtain ⟨h1, h2⟩ := wordHalfProduct_high_bounds y v w
  exact fits32_of_bounds h1 h2

/-! ## Results -/

section
variable (s : State) {rd : Reg} (h : rd ≠ Reg.pc) (e : Int)
include h

/-- Everything a sum that wraps does. -/
theorem State.writeWrapped_spec :
    ∃ t, s.writeWrapped rd e = .next t ∧ ((t.reg rd).toNat : Int) = e % 4294967296
      ∧ (t.q = true ↔ s.q = true ∨ e < -2147483648 ∨ 2147483647 < e)
      ∧ (∀ k, k ≠ 27 → t.cpsr.getLsbD k = s.cpsr.getLsbD k) ∧ Advanced s t ∧ RegisterFrame [rd] s t := by
  obtain ⟨t, hx, hv, hq, rest⟩ := s.writeSticky_spec h (BitVec.ofInt 32 e) (!fits32 e)
  rw [fits32_false_iff] at hq
  exact ⟨t, hx, by rw [hv, ofInt_toNat], hq, rest⟩

/-- Everything a value that saturates does. -/
theorem State.writeSaturated_spec (b : Bool) :
    ∃ t, s.writeSaturated rd e b = .next t ∧ (t.reg rd).toInt = max (-2147483648) (min 2147483647 e)
      ∧ (t.q = true ↔ s.q = true ∨ b = true ∨ e < -2147483648 ∨ 2147483647 < e)
      ∧ (∀ k, k ≠ 27 → t.cpsr.getLsbD k = s.cpsr.getLsbD k) ∧ Advanced s t ∧ RegisterFrame [rd] s t := by
  obtain ⟨t, hx, hv, hq, rest⟩ := s.writeSticky_spec h (BitVec.ofInt 32 (sat32 e)) (b || !fits32 e)
  rw [Bool.or_eq_true, fits32_false_iff] at hq
  exact ⟨t, hx, by rw [hv, sat32_eq, ofInt_toInt (by omega) (by omega)], hq, rest⟩

/-- Everything an exact value that fits a word does. -/
theorem State.writeResult_signed (h1 : -2147483648 ≤ e) (h2 : e ≤ 2147483647) :
    ∃ t, s.writeResult rd (BitVec.ofInt 32 e) = .next t ∧ (t.reg rd).toInt = e ∧ t.cpsr = s.cpsr ∧ Advanced s t
      ∧ RegisterFrame [rd] s t := by
  obtain ⟨t, hx, hv, rest⟩ := s.writeResult_spec h (BitVec.ofInt 32 e)
  exact ⟨t, hx, by rw [hv, ofInt_toInt h1 h2], rest⟩

end

/-- Everything a result in two registers does (rule R184): RdLo is written, then RdHi. -/
theorem State.writeTwo_spec (s : State) {hi lo : Reg} (hhi : hi ≠ Reg.pc) (hlo : lo ≠ Reg.pc) (hne : hi ≠ lo)
    (v w : Word) :
    ∃ t, (.next ((s.setReg lo w).setReg hi v).advance : Answer) = .next t ∧ t.reg hi = v ∧ t.reg lo = w
      ∧ t.cpsr = s.cpsr ∧ Advanced s t ∧ RegisterFrame [hi, lo] s t := by
  have hset : (s.setReg lo w).setReg hi v = (s.setBanked s.mode lo w).setBanked s.mode hi v := by
    rw [State.setReg_eq hhi, State.setReg_eq hlo, State.mode_setBanked]
  refine ⟨_, rfl, ?_, ?_, by simp, ?_, ?_⟩
  · rw [State.reg_advance _ hhi, State.reg_setReg_same _ hhi]
  · rw [State.reg_advance _ hlo, State.reg_setReg_other _ hlo hne.symm, State.reg_setReg_same _ hlo]
  · rw [hset]
    exact ⟨rfl, rfl⟩
  · rw [hset]
    exact ⟨⟨.two (by simp; rfl), .of (by simp), .of (by simp)⟩, by simp⟩

/-- The two words of a 64-bit value. -/
theorem words_toNat (t : BitVec 64) :
    (t.extractLsb' 32 32).toNat * 4294967296 + (t.extractLsb' 0 32).toNat = t.toNat := by
  rw [BitVec.extractLsb'_toNat, BitVec.extractLsb'_toNat, Nat.shiftRight_eq_div_pow, Nat.shiftRight_eq_div_pow]
  omega

/-- An exact value added to two words modulo 2^64 (rule R184). -/
theorem longSum_toNat (hi lo : Word) (p : Int) :
    (((hi ++ lo : BitVec 64) + BitVec.ofInt 64 p).toNat : Int)
      = (hi.toNat * 4294967296 + lo.toNat + p) % 18446744073709551616 := by
  rw [BitVec.toNat_add, append_toNat, BitVec.toNat_ofInt]
  omega

/-! ## The multiplies -/

/-- Settles O23: both words, and the sums, of a product that fits, wrapped with Q. -/
theorem smlaAndSmlawGiveSumAndQ : Obligations.SmlaAndSmlawGiveSumAndQ :=
  ⟨⟨fun c rd rn rs y x rm => decodeWord_of_code rfl (halfMultiplyBits_toNat c 0x10 rd rn rs rm y x),
      halfProduct_fits,
      fun _ _ _ _ _ _ _ s hc hd hn hs hm =>
        checked_completes hc (noneIsPc_four hd hn hs hm) (s.writeWrapped_spec hd _)⟩,
    fun c rd rn rs y rm => decodeWord_of_code rfl (wordMultiplyBits_toNat c 0x12 rd rn rs rm y 0),
    wordHalfProduct_high_fits,
    fun _ _ _ _ _ _ s hc hd hn hs hm =>
      checked_completes hc (noneIsPc_four hd hn hs hm) (s.writeWrapped_spec hd _)⟩

/-- SMLAL is predictable for two different registers below R15 (rule R184). -/
theorem smlal_predictable {c : Cond} {hi lo rs rm : Reg} {y x : Half} (hh : hi ≠ Reg.pc) (hl : lo ≠ Reg.pc)
    (hs : rs ≠ Reg.pc) (hm : rm ≠ Reg.pc) (hne : hi ≠ lo) : (Instr.smlal c hi lo rs y x rm).predictable = true :=
  Bool.and_eq_true_iff.2 ⟨noneIsPc_four hh hl hs hm, bne_iff_ne.2 hne⟩

theorem smlal_unpredictable (c : Cond) (r rs rm : Reg) (y x : Half) :
    (Instr.smlal c r r rs y x rm).predictable = false := by
  simp [Instr.predictable]

/-- Settles O24: the three words, the products that fit, and the 64-bit sum in two registers. -/
theorem smulAndSmlalGiveProducts : Obligations.SmulAndSmlalGiveProducts := by
  refine ⟨⟨fun c rd rs y rm => decodeWord_smulw c rd rs rm y,
      fun c rd rs y x rm => decodeWord_smul c rd rs rm y x,
      fun c rd rs y rm s hc hd hs hm => ?_, fun c rd rs y x rm s hc hd hs hm => ?_⟩,
    fun c hi lo rs y x rm => decodeWord_of_code rfl (halfMultiplyBits_toNat c 0x14 hi lo rs rm y x),
    fun c r rs y x rm s hc => (conditional_true hc).trans (predictably_false (smlal_unpredictable c r rs rm y x)),
    fun c hi lo rs y x rm s hc hh hl hs hm hne => ?_⟩
  · obtain ⟨h1, h2⟩ := wordHalfProduct_high_bounds y (s.reg rm) (s.reg rs)
    exact checked_completes hc (noneIsPc_three hd hs hm) (s.writeResult_signed hd _ h1 h2)
  · obtain ⟨h1, h2⟩ := halfProduct_bounds x y (s.reg rm) (s.reg rs)
    exact checked_completes hc (noneIsPc_three hd hs hm) (s.writeResult_signed hd _ (by omega) (by omega))
  · obtain ⟨t, hx, hvhi, hvlo, rest⟩ := s.writeTwo_spec hh hl hne _ _
    refine checked_completes hc (smlal_predictable hh hl hs hm hne) ⟨t, hx, ?_, rest⟩
    rw [hvhi, hvlo]
    exact (congrArg Int.ofNat (words_toNat _)).trans (longSum_toNat _ _ _)

/-! ## The saturating arithmetic -/

/-- Settles O25: the four words; QADD and QSUB clamp once, QDADD and QDSUB clamp the doubled Rn first. -/
theorem saturatingArithmeticClampsAndSetsQ : Obligations.SaturatingArithmeticClampsAndSetsQ := by
  refine ⟨⟨fun c rn rd rm => ⟨decodeWord_of_code rfl (saturatingBits_toNat c 0x10 rn rd rm),
        decodeWord_of_code rfl (saturatingBits_toNat c 0x12 rn rd rm)⟩,
      fun i c rn rd rm e s hi hc hn hd hm => ?_⟩,
    fun c rn rd rm => ⟨decodeWord_of_code rfl (saturatingBits_toNat c 0x14 rn rd rm),
      decodeWord_of_code rfl (saturatingBits_toNat c 0x16 rn rd rm)⟩,
    fun i c rn rd rm d e s hd' hi hc hn hd hm => ?_⟩
  · have hx : exec i s = s.writeSaturated rd e false := by
      rcases hi with ⟨rfl, rfl⟩ | ⟨rfl, rfl⟩ <;>
      exact (conditional_true hc).trans (predictably_true (noneIsPc_three hn hd hm))
    rw [hx]
    simpa using s.writeSaturated_spec hd e false
  · rw [← sat32_eq] at hd'
    subst hd'
    have hx : exec i s = s.writeSaturated rd e (!fits32 (2 * (s.reg rn).toInt)) := by
      rcases hi with ⟨rfl, rfl⟩ | ⟨rfl, rfl⟩ <;>
      exact (conditional_true hc).trans (predictably_true (noneIsPc_three hn hd hm))
    rw [hx, sat32_ne_iff]
    exact s.writeSaturated_spec hd e _

end Sys2Proof.Machine
end

section
/-!
SWI, and MCRR and MRRC to an absent coprocessor (rules R203, R305, R356, R357).
-/
namespace Sys2Proof.Machine

/-- Settles O30: each takes one exception, whatever its fields hold. -/
theorem softwareInterruptAndTwoRegisterTraps : Obligations.SoftwareInterruptAndTwoRegisterTraps := by
  refine ⟨fun c imm s hc => ⟨s.takeSwi, conditional_true hc, s.takeException_entered _ _, rfl, rfl⟩,
    fun i c rn rd cp op crm s hi hc => ?_⟩
  have hx : exec i s = .next s.takeUndefined := by
    rcases hi with rfl | rfl <;> exact conditional_true hc
  rw [hx]
  exact s.takeUndefined_entered

end Sys2Proof.Machine
end

section
/-!
PLD (rules R195 to R200, log 42).
-/
namespace Sys2Proof.Machine
section
variable (s : State) (va : Word)

/-- A preload changes nothing but the data TLB. -/
theorem State.preload_eq : s.preload va = { s with dtlb := (s.preload va).dtlb } := by
  unfold State.preload
  split
  · split
    · next t pa x ht =>
      rcases translate_state ht with rfl | ⟨e, rfl⟩ <;> rfl
    · rfl
    · rfl
  · rfl

/-- A preload the environment does not let fill the data TLB changes nothing. -/
theorem State.preload_idle (h : s.now.pldFills = false) : s.preload va = s := by
  unfold State.preload
  rw [if_neg (by rw [h]; decide)]

/-- Everything a preload does. -/
theorem State.preload_spec :
    ∃ t, (.next (s.preload va).advance : Answer) = .next t ∧ Advanced s t ∧ t.cpsr = s.cpsr
      ∧ RegistersKeptBut [] s t ∧ t.acc0 = s.acc0 ∧ SystemKept s t ∧ MemoryKept s t ∧ t.owed = s.owed
      ∧ t.stored = s.stored ∧ t.dirty = s.dirty ∧ t.subWord = s.subWord
      ∧ (s.now.pldFills = false → t.dtlb = s.dtlb) := by
  have hidle : s.now.pldFills = false → (s.preload va).dtlb = s.dtlb := fun h => by rw [s.preload_idle va h]
  rw [s.preload_eq va]
  exact ⟨_, rfl, ⟨rfl, rfl⟩, rfl, .none rfl, rfl, .of (by simp), fun _ => rfl, rfl, rfl, rfl, rfl, hidle⟩

end

/-- Settles O38: each form advances past the preload of its address. -/
theorem preloadCompletes : Obligations.PreloadCompletes := by
  intro i u rn s hi
  rcases hi with ⟨off, rfl⟩ | ⟨n, sh, rm, rfl, hm⟩
  · exact s.preload_spec _
  · have hx : exec (.pldReg u rn n sh rm) s
        = .next (s.preload (scaledAddress s .offset u rn n sh rm).address).advance :=
      predictably_true (bne_iff_ne.2 hm)
    rw [hx]
    exact s.preload_spec _

end Sys2Proof.Machine
end

section
/-!
The multiply-accumulates of coprocessor 0 (rules R142, R210 to R222): the words of their format, what stands behind
the open gate of the accumulator, and each instruction as the exact product it accumulates.
-/
namespace Sys2Proof.Machine

/-! ## Words -/

/-- The value of a word in the Multiply with Internal Accumulate format (rule R142). -/
theorem accumulateBits_toNat (c : Cond) (op : BitVec 12) (rs rm : Reg) :
    (c.toBits ++ op ++ rs ++ 0x01#8 ++ rm).toNat
      = op.toNat * 2 ^ 16 + 0x10 + put c.toBits 28 + put rs 12 + put rm 0 := by
  simp only [append_toNat, put, BitVec.toNat_ofNat]
  omega

/-- A word of the same format, written as its fixed bits with the two register fields in their places. -/
theorem accumulateBits_or (high : BitVec 16) (rs rm : Reg) :
    (high ++ 0x0010#16) ||| rs.setWidth 32 <<< 12 ||| rm.setWidth 32 = high ++ rs ++ 0x01#8 ++ rm := by
  have hfixed : high ++ 0x0010#16 = high ++ 0#4 ++ 0x01#8 ++ 0#4 := by
    apply BitVec.eq_of_toNat_eq
    simp only [append_toNat, BitVec.toNat_ofNat]
    omega
  have hrs : rs.setWidth 32 <<< 12 = 0#16 ++ rs ++ 0#8 ++ 0#4 := by
    apply BitVec.eq_of_toNat_eq
    simp only [append_toNat, BitVec.toNat_shiftLeft, BitVec.toNat_setWidth, BitVec.toNat_ofNat, Nat.shiftLeft_eq]
    omega
  have hrm : rm.setWidth 32 = 0#16 ++ 0#4 ++ 0#8 ++ rm := by
    apply BitVec.eq_of_toNat_eq
    simp only [append_toNat, BitVec.toNat_setWidth, BitVec.toNat_ofNat]
    omega
  calc (high ++ 0x0010#16) ||| rs.setWidth 32 <<< 12 ||| rm.setWidth 32
    _ = (high ++ 0#4 ++ 0x01#8 ++ 0#4) ||| (0#16 ++ rs ++ 0#8 ++ 0#4) ||| (0#16 ++ 0#4 ++ 0#8 ++ rm) := by
      rw [hfixed, hrs, hrm]
    _ = high ++ rs ++ 0x01#8 ++ rm := by
      simp only [BitVec.or_append, BitVec.or_zero, BitVec.zero_or]

section
variable {i : Instr} {rs rm : Reg} (op : BitVec 12) (he : i.encodable = true)
include he

/-- A word of the format decodes to the instruction for which the encoder writes its value. -/
theorem decodeWord_accumulate {c : Cond}
    (h : op.toNat * 2 ^ 16 + 0x10 + put c.toBits 28 + put rs 12 + put rm 0 = i.code) :
    decodeWord (c.toBits ++ op ++ rs ++ 0x01#8 ++ rm) = .ok i :=
  decodeWord_of_code he ((accumulateBits_toNat c op rs rm).trans h)

/-- The encoder's word for such an instruction, as its fixed bits with the register fields in their places. -/
theorem encode_accumulate {c : Cond}
    (h : op.toNat * 2 ^ 16 + 0x10 + put c.toBits 28 + put rs 12 + put rm 0 = i.code) :
    encode i = (c.toBits ++ op ++ 0x0010#16) ||| rs.setWidth 32 <<< 12 ||| rm.setWidth 32 := by
  rw [accumulateBits_or]
  exact (decodeAndEncodeAgree.2 _ i (decodeWord_accumulate op he h)).1

end

/-! ## The condition, the gate, and R15 in a field -/

section
variable {i : Instr} {c : Cond} {s : State} {b : Answer} (hc : conditionPassed c s = true)
  (hg : s.eff.cpar.getLsbD 0 = true)
include hc hg

/-- A predictable instruction behind the accumulator's open gate completes as its body does. -/
theorem gated_completes {P : State → Prop} (hp : i.predictable = true) (h : ∃ t, b = .next t ∧ P t) :
    ∃ t, conditional c s (accumulatorGate s (predictably i b)) = .next t ∧ P t := by
  rw [conditional_true hc, accumulatorGate_open hg, predictably_true hp]
  exact h

/-- An instruction that is not predictable is refused behind the open gate. -/
theorem gated_refused (hp : i.predictable = false) :
    conditional c s (accumulatorGate s (predictably i b)) = .refused .unpredictableRegisters := by
  rw [conditional_true hc, accumulatorGate_open hg, predictably_false hp]

end

/-- R15 in a field of a multiply-accumulate is UNPREDICTABLE (rule R212). -/
theorem noneIsPc_two_of_pc {a b : Reg} (h : a = Reg.pc ∨ b = Reg.pc) : Reg.noneIsPc [a, b] = false := by
  rcases h with rfl | rfl <;> simp [Reg.noneIsPc]

/-! ## The products -/

/-- The product of two signed words (rule R215). -/
theorem wordProduct_bounds (v w : Word) :
    -4611686016279904256 ≤ v.toInt * w.toInt ∧ v.toInt * w.toInt ≤ 4611686018427387904 := by
  obtain ⟨v1, v2⟩ := toInt_bounds v
  obtain ⟨w1, w2⟩ := toInt_bounds w
  constructor <;> nlinarith

/-- Settles O12: both words, the products in range, R15 refused, and the exact product accumulated. -/
theorem miaAndMiaphAccumulateProducts : Obligations.MiaAndMiaphAccumulateProducts :=
  ⟨⟨fun _ _ _ => decodeWord_accumulate 0xE20 rfl rfl,
      wordProduct_bounds,
      fun _ _ => encode_accumulate 0xE20 rfl (c := .al) rfl,
      fun _ _ _ _ hc hg hpc => gated_refused hc hg (noneIsPc_two_of_pc hpc),
      fun _ _ _ s hc hg hs hm => gated_completes hc hg (noneIsPc_two hs hm) (s.accumulate_spec _)⟩,
    fun _ _ _ => decodeWord_accumulate 0xE28 rfl rfl,
    halfProduct_bounds,
    fun _ _ => encode_accumulate 0xE28 rfl (c := .al) rfl,
    fun _ _ _ _ hc hg hpc => gated_refused hc hg (noneIsPc_two_of_pc hpc),
    fun _ _ _ s hc hg hs hm => gated_completes hc hg (noneIsPc_two hs hm) (s.accumulate_spec _)⟩

/-- Settles O13: the four words, and the product of the halves each names accumulated. -/
theorem miaHalvesAccumulateProduct : Obligations.MiaHalvesAccumulateProduct := by
  refine ⟨fun c rs rm => ⟨decodeWord_accumulate 0xE2C rfl rfl, decodeWord_accumulate 0xE2D rfl rfl,
      decodeWord_accumulate 0xE2E rfl rfl, decodeWord_accumulate 0xE2F rfl rfl⟩,
    fun rs rm => ⟨encode_accumulate 0xE2C rfl (c := .al) rfl, encode_accumulate 0xE2D rfl (c := .al) rfl,
      encode_accumulate 0xE2E rfl (c := .al) rfl, encode_accumulate 0xE2F rfl (c := .al) rfl⟩,
    fun i c rs rm lowM lowS s hi hc hg hs hm => ?_⟩
  rcases hi with ⟨rfl, rfl, rfl⟩ | ⟨rfl, rfl, rfl⟩ | ⟨rfl, rfl, rfl⟩ | ⟨rfl, rfl, rfl⟩ <;>
  exact gated_completes hc hg (noneIsPc_two hs hm) (s.accumulate_spec _)

end Sys2Proof.Machine
end

section
/-!
The transfers between the accumulator and two registers (rules R143, R233 to R235): the words of their format, the
accumulator as two words, and each instruction as the transfer it completes.
-/
namespace Sys2Proof.Machine

/-! ## Words -/

/-- The value of a word in the Internal Accumulator Access format (rule R143). -/
theorem transferBits_toNat (c : Cond) (op : BitVec 8) (hi lo : Reg) :
    (c.toBits ++ op ++ hi ++ lo ++ 0x000#12).toNat
      = op.toNat * 2 ^ 20 + put c.toBits 28 + put hi 16 + put lo 12 := by
  simp only [append_toNat, put, BitVec.toNat_ofNat]
  omega

/-- A word of the same format, written as its fixed bits with the two register fields in their places. -/
theorem transferBits_or (high : BitVec 12) (hi lo : Reg) :
    (high ++ 0x00000#20) ||| hi.setWidth 32 <<< 16 ||| lo.setWidth 32 <<< 12 = high ++ hi ++ lo ++ 0x000#12 := by
  have hfixed : high ++ 0x00000#20 = high ++ 0#4 ++ 0#4 ++ 0#12 := by
    apply BitVec.eq_of_toNat_eq
    simp only [append_toNat, BitVec.toNat_ofNat]
    omega
  have hhi : hi.setWidth 32 <<< 16 = 0#12 ++ hi ++ 0#4 ++ 0#12 := by
    apply BitVec.eq_of_toNat_eq
    simp only [append_toNat, BitVec.toNat_shiftLeft, BitVec.toNat_setWidth, BitVec.toNat_ofNat, Nat.shiftLeft_eq]
    omega
  have hlo : lo.setWidth 32 <<< 12 = 0#12 ++ 0#4 ++ lo ++ 0#12 := by
    apply BitVec.eq_of_toNat_eq
    simp only [append_toNat, BitVec.toNat_shiftLeft, BitVec.toNat_setWidth, BitVec.toNat_ofNat, Nat.shiftLeft_eq]
    omega
  calc (high ++ 0x00000#20) ||| hi.setWidth 32 <<< 16 ||| lo.setWidth 32 <<< 12
    _ = (high ++ 0#4 ++ 0#4 ++ 0#12) ||| (0#12 ++ hi ++ 0#4 ++ 0#12) ||| (0#12 ++ 0#4 ++ lo ++ 0#12) := by
      rw [hfixed, hhi, hlo]
    _ = high ++ hi ++ lo ++ 0x000#12 := by
      simp only [BitVec.or_append, BitVec.or_zero, BitVec.zero_or]

section
variable {i : Instr} {hi lo : Reg} (op : BitVec 8) (he : i.encodable = true)
include he

/-- A word of the format decodes to the instruction for which the encoder writes its value. -/
theorem decodeWord_transfer {c : Cond} (h : op.toNat * 2 ^ 20 + put c.toBits 28 + put hi 16 + put lo 12 = i.code) :
    decodeWord (c.toBits ++ op ++ hi ++ lo ++ 0x000#12) = .ok i :=
  decodeWord_of_code he ((transferBits_toNat c op hi lo).trans h)

/-- The encoder's word for such an instruction, as its fixed bits with the register fields in their places. -/
theorem encode_transfer {c : Cond} (h : op.toNat * 2 ^ 20 + put c.toBits 28 + put hi 16 + put lo 12 = i.code) :
    encode i = (c.toBits ++ op ++ 0x00000#20) ||| hi.setWidth 32 <<< 16 ||| lo.setWidth 32 <<< 12 := by
  rw [transferBits_or]
  exact (decodeAndEncodeAgree.2 _ i (decodeWord_transfer op he h)).1

end

/-! ## The accumulator as two words -/

/-- What MAR puts in the accumulator, from RdHi and RdLo (rule R233). -/
theorem accumulatorOfWords_toNat (hi lo : Word) :
    (hi.extractLsb' 0 8 ++ lo : Acc).toNat = hi.toNat % 256 * 4294967296 + lo.toNat := by
  rw [append_toNat, BitVec.extractLsb'_toNat, Nat.shiftRight_zero]
  rfl

/-- What MRA puts in RdLo (rule R234). -/
theorem accumulatorLow_toNat (a : Acc) : (a.extractLsb' 0 32).toNat = a.toNat % 4294967296 := by
  rw [BitVec.extractLsb'_toNat, Nat.shiftRight_zero]

/-- What MRA puts in RdHi: the signed accumulator without its low word (rule R234). -/
theorem accumulatorHigh_toInt (a : Acc) :
    ((a.extractLsb' 32 8).signExtend 32).toInt = a.toInt / 4294967296 := by
  rw [BitVec.toInt_signExtend_of_le (by decide), BitVec.toInt_eq_toNat_cond, BitVec.toInt_eq_toNat_cond,
    BitVec.extractLsb'_toNat, Nat.shiftRight_eq_div_pow]
  have := a.isLt
  omega

/-- The low byte of a sign-extended byte. -/
theorem lowByte_signExtend (b : Byte) : (b.signExtend 32).extractLsb' 0 8 = b := by
  apply BitVec.eq_of_getLsbD_eq
  intro i hi
  rw [BitVec.getLsbD_extractLsb', Nat.zero_add, BitVec.getLsbD_signExtend, if_pos hi]
  simp [hi, show i < 32 by omega]

/-- The two words MRA gives are the accumulator again (rule R235). -/
theorem accumulatorOfWords_ofAccumulator (a : Acc) :
    ((a.extractLsb' 32 8).signExtend 32).extractLsb' 0 8 ++ a.extractLsb' 0 32 = a := by
  rw [lowByte_signExtend]
  exact BitVec.extractLsb'_append_extractLsb' (w := 8)

/-! ## The instructions -/

/-- An answer is one answer: what a completion guarantees holds of the state reached. -/
theorem of_completes {x : Answer} {t : State} {P : State → Prop} (h : ∃ t, x = .next t ∧ P t) (ht : x = .next t) :
    P t := by
  obtain ⟨t', hx, hP⟩ := h
  rwa [← Host.Outcome.next.inj (hx.symm.trans ht)]

/-- MAR and MRA are predictable for two different registers below R15 (rules R233, R234). -/
theorem transfer_predictable {hi lo : Reg} (hhi : hi ≠ Reg.pc) (hlo : lo ≠ Reg.pc) (hne : hi ≠ lo) :
    (Reg.noneIsPc [hi, lo] && hi != lo) = true :=
  Bool.and_eq_true_iff.2 ⟨noneIsPc_two hhi hlo, bne_iff_ne.2 hne⟩

section
variable {c : Cond} {hi lo : Reg} {s : State} (hc : conditionPassed c s = true) (hg : s.eff.cpar.getLsbD 0 = true)
  (hhi : hi ≠ Reg.pc) (hlo : lo ≠ Reg.pc) (hne : hi ≠ lo)
include hc hg hhi hlo hne

/-- Everything MAR does (rule R233). -/
theorem exec_mar_spec :
    ∃ t, exec (.mar c hi lo) s = .next t ∧ t.acc0 = (s.reg hi).extractLsb' 0 8 ++ s.reg lo
      ∧ t.cpsr = s.cpsr ∧ Advanced s t ∧ AccumulatorFrame [] s t :=
  gated_completes hc hg (transfer_predictable hhi hlo hne) ⟨_, rfl, rfl, rfl, ⟨rfl, rfl⟩, .accumulator s _⟩

/-- Everything MRA does (rule R234). -/
theorem exec_mra_spec :
    ∃ t, exec (.mra c hi lo) s = .next t ∧ t.reg hi = (s.acc0.extractLsb' 32 8).signExtend 32
      ∧ t.reg lo = s.acc0.extractLsb' 0 32 ∧ t.cpsr = s.cpsr ∧ Advanced s t ∧ RegisterFrame [hi, lo] s t :=
  gated_completes hc hg (transfer_predictable hhi hlo hne) (s.writeTwo_spec hhi hlo hne _ _)

end

/-- Settles O14: both words, and the transfer each way, its values in arithmetic. -/
theorem marAndMraMoveAccumulator : Obligations.MarAndMraMoveAccumulator := by
  refine ⟨⟨fun c hi lo => decodeWord_transfer 0xC4 rfl rfl, fun hi lo => encode_transfer 0xC4 rfl (c := .al) rfl,
      fun c hi lo s hc hg hhi hlo hne => ?_⟩,
    fun c hi lo => decodeWord_transfer 0xC5 rfl rfl, fun hi lo => encode_transfer 0xC5 rfl (c := .al) rfl,
    fun c hi lo s hc hg hhi hlo hne => ?_⟩
  · obtain ⟨t, hx, hacc, rest⟩ := exec_mar_spec hc hg hhi hlo hne
    exact ⟨t, hx, by rw [hacc, accumulatorOfWords_toNat], rest⟩
  · obtain ⟨t, hx, hvhi, hvlo, rest⟩ := exec_mra_spec hc hg hhi hlo hne
    exact ⟨t, hx, by rw [hvlo, accumulatorLow_toNat], by rw [hvhi, accumulatorHigh_toInt], rest⟩

/-- Settles O15: the second transfer finds the gate still open, and reads back what the first one wrote. -/
theorem accumulatorRoundTrips : Obligations.AccumulatorRoundTrips := by
  intro hi lo s t u hhi hlo hne hg
  refine ⟨fun hst htu => ?_, fun hst htu => ?_⟩
  · obtain ⟨hvhi, hvlo, -, -, hframe⟩ := of_completes (exec_mra_spec rfl hg hhi hlo hne) hst
    have hopen : t.eff.cpar.getLsbD 0 = true := by rw [hframe.system.eff, hg]
    obtain ⟨hacc, -⟩ := of_completes (exec_mar_spec rfl hopen hhi hlo hne) htu
    rw [hacc, hvhi, hvlo, accumulatorOfWords_ofAccumulator]
  · obtain ⟨hacc, -, -, hframe⟩ := of_completes (exec_mar_spec rfl hg hhi hlo hne) hst
    have hopen : t.eff.cpar.getLsbD 0 = true := by rw [hframe.system.eff, hg]
    obtain ⟨hvhi, hvlo, -⟩ := of_completes (exec_mra_spec rfl hopen hhi hlo hne) htu
    constructor
    · rw [hvlo, hacc, BitVec.extractLsb'_append_eq_right]
    · rw [hvhi, hacc, BitVec.extractLsb'_append_eq_left, BitVec.toInt_signExtend_of_le (by decide)]

end Sys2Proof.Machine
end

section
/-!
CPWAIT (rules R255, R256; log 8): how its stage passes from step to step, and what its last instruction brings.
-/

namespace Sys2Proof.Machine

/-! ## The step that runs an instruction -/

/-- A step that reaches an instruction and answers a state has executed the instruction and settled CPWAIT's stage. -/
theorem Runs.step_next {s t u : State} {i : Instr} (h : Runs s i u) (ht : step s = .next t) :
    ∃ v w, exec i u = .next v ∧ settle i u v = some w ∧ t = w.endStep :=
  retire_next (h.retires.symm.trans ht)

/-- What lands and what the fetch fills leave CPWAIT's stage and the program counter alone. -/
theorem Runs.cpwait_pc {s u : State} {i : Instr} (h : Runs s i u) : u.cpwait = s.cpwait ∧ u.pc = s.pc := by
  obtain ⟨_, _, _, _, _, _, _, _, _, _, hu⟩ := h.state
  constructor <;> rw [hu]

/-- The stage after a step whose instruction is not CPWAIT's last: it depends on the state the instruction runs in, and
not on what the instruction does. -/
theorem Runs.step_cpwait {s t u : State} {i : Instr} (h : Runs s i u) (hi : i ≠ cpwaitSub) (ht : step s = .next t) :
    t.cpwait = cpwaitStage i u := by
  obtain ⟨v, w, _, hw, rfl⟩ := h.step_next ht
  rw [settle_other (Bool.eq_false_iff.2 fun e => hi (completesCpwait_iff.1 e).1)] at hw
  rw [State.endStep_cpwait, ← Option.some.inj hw]

/-! ## The stages -/

theorem cpwaitStage_mrc {s : State} (h : s.privileged = true) : cpwaitStage cpwaitMrc s = .afterMrc :=
  if_pos ⟨rfl, h⟩

theorem cpwaitStage_mov {s : State} (h : s.cpwait = .afterMrc) : cpwaitStage cpwaitMov s = .afterMov :=
  (if_neg fun e => absurd e.1 (by decide)).trans (if_pos ⟨rfl, h⟩)

/-! ## The last instruction -/

/-- A data-processing write of R15 that has a meaning is a transfer of control to its target. -/
theorem State.dataBranch_next {s t : State} {target : Word} (h : s.dataBranch target = .next t) :
    t = s.branchTo target := by
  unfold State.dataBranch at h
  split at h
  · exact (Host.Outcome.next.inj h).symm
  · cases h

/-- `SUB PC, PC, #4` transfers control to the instruction after it: R15 reads 8 ahead (rule R24). -/
theorem exec_cpwaitSub (s : State) : exec cpwaitSub s = s.dataBranch (s.pc + 8 - 4) := rfl

/-- Landing every pending effect leaves none pending, and keeps the program counter. -/
theorem landPending_all {s t : State} (h : landPending s.pending.length s = some t) :
    t.pending = [] ∧ t.pc = s.pc := by
  have hland : LandStep s t := landPending_step _ h
  exact ⟨by rw [landPending_pending _ h, List.drop_length], by rw [hland]⟩

/-- CPWAIT's last instruction, where the first two have just run: everything pending lands, and control passes to the
next instruction. -/
theorem Runs.step_completes {s t u : State} (h : Runs s cpwaitSub u) (hs : s.cpwait = .afterMov)
    (ht : step s = .next t) : t.pending = [] ∧ t.pc = s.pc + 4 := by
  obtain ⟨hstage, hpc⟩ := h.cpwait_pc
  obtain ⟨v, w, hx, hw, rfl⟩ := h.step_next ht
  rw [settle_completing rfl (hstage.trans hs)] at hw
  obtain ⟨hpending, hkept⟩ := landPending_all (s := { v with cpwait := .idle }) (t := w) hw
  have hv : v = u.branchTo (u.pc + 8 - 4) := State.dataBranch_next ((exec_cpwaitSub u).symm.trans hx)
  refine ⟨hpending, ?_⟩
  calc w.endStep.pc = v.pc := hkept
    _ = s.pc + 4 := by rw [hv, State.branchTo_pc, hpc]; bv_omega

/-- With nothing pending the registers in effect are those that MRC reads. -/
theorem State.Cp15Agrees.eff_of_settled {s : State} (h : s.Cp15Agrees) (hp : s.pending = []) : s.eff = s.cp15 := by
  unfold State.Cp15Agrees at h
  rwa [hp] at h

/-- Settles O54: each step passes the stage on to the next, the last one lands what is pending, and every step keeps the
agreement of the registers. -/
theorem cpwaitCompletes : Obligations.CpwaitCompletes := by
  intro s0 s1 s2 s3 u0 u1 u2 ha hpriv hmrc h01 hmov h12 hsub h23
  have hs1 : s1.cpwait = .afterMrc := (hmrc.step_cpwait (by decide) h01).trans (cpwaitStage_mrc hpriv)
  have hs2 : s2.cpwait = .afterMov :=
    (hmov.step_cpwait (by decide) h12).trans (cpwaitStage_mov (hmov.cpwait_pc.1.trans hs1))
  obtain ⟨hpending, hpc⟩ := hsub.step_completes hs2 h23
  have hagrees : s3.Cp15Agrees :=
    cp15Agrees_stepInvariant.step h23 (cp15Agrees_stepInvariant.step h12 (cp15Agrees_stepInvariant.step h01 ha))
  exact ⟨hpending, hagrees.eff_of_settled hpending, hpc⟩

end Sys2Proof.Machine
end

section
/-!
Data processing (rules R270 to R274): the flags a result leaves, each of the four operations below R15, and a result
for R15 as a transfer of control or a return from an exception.
-/
namespace Sys2Proof.Machine

/-! ## The flags of a result (rule R27) -/

section
variable {s t : State} {r : Word} {carry overflow : Bool}

theorem flags_of_withNZ (h : t.cpsr = withNZ s.cpsr r) :
    t.n = r.getLsbD 31 ∧ (t.z = true ↔ r = 0) ∧ CpsrKeptBelow 30 s t := by
  obtain ⟨hn, hz⟩ := withNZ_bits s.cpsr r
  unfold State.n State.z CpsrKeptBelow
  rw [h, hz, decide_eq_true_iff]
  exact ⟨hn, Iff.rfl, fun _ => withNZ_low _ _⟩

theorem flags_of_withNZC (h : t.cpsr = withNZC s.cpsr r carry) :
    t.n = r.getLsbD 31 ∧ (t.z = true ↔ r = 0) ∧ t.c = carry ∧ CpsrKeptBelow 29 s t := by
  obtain ⟨hn, hz, hc⟩ := withNZC_bits s.cpsr r carry
  unfold State.n State.z State.c CpsrKeptBelow
  rw [h, hz, decide_eq_true_iff]
  exact ⟨hn, Iff.rfl, hc, fun _ => withNZC_low _ _ _⟩

theorem flags_of_withNZCV (h : t.cpsr = withNZCV s.cpsr r carry overflow) :
    t.n = r.getLsbD 31 ∧ (t.z = true ↔ r = 0) ∧ t.c = carry ∧ t.v = overflow ∧ CpsrKeptBelow 28 s t := by
  obtain ⟨hn, hz, hc, hv⟩ := withNZCV_bits s.cpsr r carry overflow
  unfold State.n State.z State.c State.v CpsrKeptBelow
  rw [h, hz, decide_eq_true_iff]
  exact ⟨hn, Iff.rfl, hc, hv, fun _ => withNZCV_low _ _ _ _⟩

end

/-! ## The four operations below R15 -/

section
variable (s : State) (f : Bool) {rd : Reg} (hd : rd ≠ Reg.pc)
include hd

/-- A result below R15 leaves the status register alone with S = 0; with S = 1 what its flags amount to holds. -/
theorem State.dataResult_flags {r cpsr : Word} {P : State → Prop} (hm : psrMode cpsr = psrMode s.cpsr)
    (hP : ∀ t : State, t.cpsr = cpsr → P t) :
    ∃ t, s.dataResult f rd r cpsr = .next t ∧ t.reg rd = r ∧ Advanced s t ∧ RegisterFrame [rd] s t
      ∧ (f = false → t.cpsr = s.cpsr) ∧ (f = true → P t) := by
  obtain ⟨t, hx, hv, hadv, hframe, hc⟩ := State.dataResult_spec (s := s) (f := f) (r := r) hd hm
  exact ⟨t, hx, hv, hadv, hframe, fun hf => by rw [hc, hf]; rfl, fun hf => hP t (by rw [hc, hf]; rfl)⟩

/-- Everything MOV does below R15 (rule R270). -/
theorem State.move_spec (op : Shifted) :
    ∃ t, s.move f rd op = .next t ∧ t.reg rd = op.value ∧ Advanced s t ∧ RegisterFrame [rd] s t
      ∧ (f = false → t.cpsr = s.cpsr)
      ∧ (f = true → t.n = op.value.getLsbD 31 ∧ (t.z = true ↔ op.value = 0) ∧ t.c = op.carry
        ∧ CpsrKeptBelow 29 s t) :=
  s.dataResult_flags f hd (psrMode_withNZC _ _ _) fun _ => flags_of_withNZC

/-- Everything ORR does below R15 (rule R272). -/
theorem State.orr_spec (rn : Reg) (op : Shifted) :
    ∃ t, s.orr f rn rd op = .next t ∧ t.reg rd = s.reg rn ||| op.value ∧ Advanced s t ∧ RegisterFrame [rd] s t
      ∧ (f = false → t.cpsr = s.cpsr)
      ∧ (f = true → t.n = (t.reg rd).getLsbD 31 ∧ (t.z = true ↔ t.reg rd = 0) ∧ t.c = op.carry
        ∧ CpsrKeptBelow 29 s t) := by
  obtain ⟨t, hx, hv, rest⟩ := s.dataResult_flags f hd (r := s.reg rn ||| op.value)
    (psrMode_withNZC _ _ op.carry) fun _ => flags_of_withNZC
  refine ⟨t, hx, hv, ?_⟩
  rw [hv]
  exact rest

/-- Everything ADD does below R15 (rule R271). -/
theorem State.add_spec (rn : Reg) (op : Shifted) :
    ∃ t, s.add f rn rd op = .next t ∧ (t.reg rd).toNat = ((s.reg rn).toNat + op.value.toNat) % 4294967296
      ∧ Advanced s t ∧ RegisterFrame [rd] s t
      ∧ (f = false → t.cpsr = s.cpsr)
      ∧ (f = true → t.n = (t.reg rd).getLsbD 31 ∧ (t.z = true ↔ t.reg rd = 0)
        ∧ (t.c = true ↔ 4294967296 ≤ (s.reg rn).toNat + op.value.toNat)
        ∧ (t.v = true ↔ (s.reg rn).toInt + op.value.toInt < -2147483648
            ∨ 2147483647 < (s.reg rn).toInt + op.value.toInt)
        ∧ CpsrKeptBelow 28 s t) := by
  obtain ⟨t, hx, hv, hadv, hframe, hkept, hflags⟩ := s.dataResult_flags f hd (r := s.reg rn + op.value)
    (psrMode_withNZCV _ _ (addCarry (s.reg rn) op.value) (addOverflow (s.reg rn) op.value))
    fun _ => flags_of_withNZCV
  refine ⟨t, hx, by rw [hv, BitVec.toNat_add], hadv, hframe, hkept, fun hf => ?_⟩
  obtain ⟨hn, hz, hc, ho, hlow⟩ := hflags hf
  rw [hv, hc, ho]
  exact ⟨hn, hz, decide_eq_true_iff, fits32_false_iff _, hlow⟩

/-- Everything SUB does below R15 (rule R273): its carry is NOT borrow. -/
theorem State.sub_spec (rn : Reg) (op : Shifted) :
    ∃ t, s.sub f rn rd op = .next t
      ∧ ((t.reg rd).toNat : Int) = ((s.reg rn).toNat - op.value.toNat : Int) % 4294967296
      ∧ Advanced s t ∧ RegisterFrame [rd] s t
      ∧ (f = false → t.cpsr = s.cpsr)
      ∧ (f = true → t.n = (t.reg rd).getLsbD 31 ∧ (t.z = true ↔ t.reg rd = 0)
        ∧ (t.c = true ↔ op.value.toNat ≤ (s.reg rn).toNat)
        ∧ (t.v = true ↔ (s.reg rn).toInt - op.value.toInt < -2147483648
            ∨ 2147483647 < (s.reg rn).toInt - op.value.toInt)
        ∧ CpsrKeptBelow 28 s t) := by
  obtain ⟨t, hx, hv, hadv, hframe, hkept, hflags⟩ := s.dataResult_flags f hd (r := s.reg rn - op.value)
    (psrMode_withNZCV _ _ (subCarry (s.reg rn) op.value) (subOverflow (s.reg rn) op.value))
    fun _ => flags_of_withNZCV
  refine ⟨t, hx, by rw [hv, BitVec.toNat_sub]; omega, hadv, hframe, hkept, fun hf => ?_⟩
  obtain ⟨hn, hz, hc, ho, hlow⟩ := hflags hf
  rw [hv, hc, ho]
  exact ⟨hn, hz, decide_eq_true_iff, fits32_false_iff _, hlow⟩

end

/-- Settles O18: each of the six forms is MOV or ORR of its operand. -/
theorem movAndOrrGiveResultAndFlags : Obligations.MovAndOrrGiveResultAndFlags := by
  refine ⟨fun i c f rd op s hi hc hd => ?_, fun i c f rn rd op s hi hc hd => ?_⟩
  · have hx : exec i s = s.move f rd op := by
      rcases hi with ⟨_, _, rfl, rfl⟩ | ⟨_, _, _, rfl, rfl⟩ | ⟨_, _, _, rfl, rfl, hs, hm⟩
      · exact conditional_true hc
      · exact conditional_true hc
      · exact (conditional_true hc).trans (predictably_true (noneIsPc_three hd hs hm))
    rw [hx]
    exact s.move_spec f hd op
  · have hx : exec i s = s.orr f rn rd op := by
      rcases hi with ⟨_, _, rfl, rfl⟩ | ⟨_, _, _, rfl, rfl⟩ | ⟨_, _, _, rfl, rfl, hn, hs, hm⟩
      · exact conditional_true hc
      · exact conditional_true hc
      · exact (conditional_true hc).trans (predictably_true (noneIsPc_four hn hd hs hm))
    rw [hx]
    obtain ⟨t, ht, hv, rest⟩ := s.orr_spec f hd rn op
    exact ⟨t, ht, fun k _ => by rw [hv, BitVec.getLsbD_or], rest⟩

/-- Settles O19: each of the six forms is ADD or SUB of its operand. -/
theorem addAndSubGiveResultAndFlags : Obligations.AddAndSubGiveResultAndFlags := by
  refine ⟨fun i c f rn rd op s hi hc hd => ?_, fun i c f rn rd op s hi hc hd => ?_⟩
  · have hx : exec i s = s.add f rn rd op := by
      rcases hi with ⟨_, _, rfl, rfl⟩ | ⟨_, _, _, rfl, rfl⟩ | ⟨_, _, _, rfl, rfl, hn, hs, hm⟩
      · exact conditional_true hc
      · exact conditional_true hc
      · exact (conditional_true hc).trans (predictably_true (noneIsPc_four hn hd hs hm))
    rw [hx]
    exact s.add_spec f hd rn op
  · have hx : exec i s = s.sub f rn rd op := by
      rcases hi with ⟨_, _, rfl, rfl⟩ | ⟨_, _, _, rfl, rfl⟩ | ⟨_, _, _, rfl, rfl, hn, hs, hm⟩
      · exact conditional_true hc
      · exact conditional_true hc
      · exact (conditional_true hc).trans (predictably_true (noneIsPc_four hn hd hs hm))
    rw [hx]
    exact s.sub_spec f hd rn op

/-! ## Frames of a transfer of control -/

theorem RegisterFrame.refl (s : State) : RegisterFrame [] s s :=
  ⟨⟨.none rfl, .of (by simp), .of (by simp)⟩, rfl⟩

/-- The status register and the program counter are in no frame. -/
theorem RegisterFrame.status {rs : List Reg} {s u : State} (h : RegisterFrame rs s u) (cpsr pc : Word) (top : Bool) :
    RegisterFrame rs s { u with cpsr := cpsr, pc := pc, pastTop := top } := by
  obtain ⟨⟨hr, ⟨h1, h2, h3, h4, h5, h6, h7, h8, h9, h10, h11⟩, ⟨d1, d2, d3, d4, d5, d6⟩⟩, ha⟩ := h
  exact ⟨⟨hr, ⟨h1, h2, h3, h4, h5, h6, h7, h8, h9, h10, h11⟩, ⟨d1, d2, d3, d4, d5, d6⟩⟩, ha⟩

/-! ## Results for R15 (rules R274, R300, R335) -/

section
variable {s : State} {r psr : Word}

/-- A data-processing transfer of control to a multiple of 4. -/
theorem State.dataBranch_spec (h : r.toNat % 4 = 0) :
    ∃ t, s.dataBranch r = .next t ∧ Transferred r s t ∧ t.cpsr = s.cpsr ∧ RegisterFrame [] s t :=
  ⟨s.branchTo r, if_pos ((low_two_zero r).2 h), ⟨rfl, rfl⟩, rfl, (RegisterFrame.refl s).status _ _ _⟩

theorem State.dataBranch_refused (h : r.toNat % 4 ≠ 0) : s.dataBranch r = .refused .unalignedBranch :=
  if_neg fun hz => h ((low_two_zero r).1 hz)

/-- User and System mode have no SPSR (rule R29). -/
theorem State.spsr_eq_none (h : s.mode = .usr ∨ s.mode = .sys) : s.spsr s.mode = none := by
  rcases h with h | h <;> rw [h] <;> rfl

theorem State.exceptionReturn_noSpsr (h : s.spsr s.mode = none) : s.exceptionReturn r = .refused .noSpsr := by
  unfold State.exceptionReturn
  rw [h]

theorem State.exceptionReturn_noMode (hs : s.spsr s.mode = some psr) (hm : psrMode psr = none) :
    s.exceptionReturn r = .refused .unpredictableMode := by
  unfold State.exceptionReturn
  rw [hs]
  simp only [hm]

/-- A return with an SPSR that names a mode hangs on the alignment of its target alone (rule R300, log 37). -/
theorem State.exceptionReturn_eq {m : Mode} (hs : s.spsr s.mode = some psr) (hm : psrMode psr = some m) :
    s.exceptionReturn r = if r.toNat % 4 = 0 ∨ (psr.getLsbD 5 = true ∧ r.toNat % 2 = 0)
      then .next ((s.setCpsr psr).branchTo r) else .refused .unalignedBranch := by
  unfold State.exceptionReturn
  rw [hs]
  simp only [hm, low_two_zero, bit_zero]

end

/-- Settles O20: each of the eight forms is a transfer of control to its result. -/
theorem dataProcessingBranchTransfers : Obligations.DataProcessingBranchTransfers := by
  intro i c rn r s hi hc
  have hx : exec i s = s.dataBranch r := by
    rcases hi with ⟨_, _, rfl, rfl⟩ | ⟨_, _, _, rfl, rfl⟩ | ⟨_, _, rfl, rfl⟩ | ⟨_, _, _, rfl, rfl⟩
      | ⟨_, _, rfl, rfl⟩ | ⟨_, _, _, rfl, rfl⟩ | ⟨_, _, rfl, rfl⟩ | ⟨_, _, _, rfl, rfl⟩ <;>
    exact conditional_true hc
  rw [hx]
  exact ⟨State.dataBranch_spec, State.dataBranch_refused⟩

/-- Settles O21: each of the eight forms is a return from an exception to its result. -/
theorem exceptionReturnRestoresStatus : Obligations.ExceptionReturnRestoresStatus := by
  intro i c rn r s hi hc
  have hx : exec i s = s.exceptionReturn r := by
    rcases hi with ⟨_, _, rfl, rfl⟩ | ⟨_, _, _, rfl, rfl⟩ | ⟨_, _, rfl, rfl⟩ | ⟨_, _, _, rfl, rfl⟩
      | ⟨_, _, rfl, rfl⟩ | ⟨_, _, _, rfl, rfl⟩ | ⟨_, _, rfl, rfl⟩ | ⟨_, _, _, rfl, rfl⟩ <;>
    exact conditional_true hc
  rw [hx]
  refine ⟨fun psr m hs hm hr => ?_, fun hmode => State.exceptionReturn_noSpsr (State.spsr_eq_none hmode),
    fun psr hs hm => State.exceptionReturn_noMode hs hm, fun psr m hs hm hr => ?_⟩
  · rw [State.exceptionReturn_eq hs hm, if_pos hr]
    exact ⟨_, rfl, rfl, ⟨rfl, rfl⟩, (RegisterFrame.refl s).status _ _ _⟩
  · rw [State.exceptionReturn_eq hs hm, if_neg]
    rintro (h4 | ⟨hT, h2⟩)
    · rcases hr with h1 | ⟨-, h4'⟩ <;> omega
    · rcases hr with h1 | ⟨hT', -⟩
      · omega
      · exact absurd (hT.symm.trans hT') (by decide)

end Sys2Proof.Machine
end

section
/-!
MLA and CLZ (rules R290, R304): their words, what makes them UNPREDICTABLE, and what each writes.
-/
namespace Sys2Proof.Machine

/-! ## MLA (rule R290) -/

/-- The word of MLA has the value the encoder writes. -/
theorem mlaBits_toNat (c : Cond) (f : Bool) (rd rn rs rm : Reg) :
    (c.toBits ++ 0b0000001#7 ++ BitVec.ofBool f ++ rd ++ rn ++ rs ++ 0b1001#4 ++ rm).toNat
      = (Instr.mla c f rd rn rs rm).code := by
  simp only [append_toNat, Instr.code, put, putBit, BitVec.toNat_ofNat, BitVec.toNat_ofBool]
  omega

theorem mla_unpredictable {c : Cond} {f : Bool} {rd rn rs rm : Reg}
    (h : rd = Reg.pc ∨ rn = Reg.pc ∨ rs = Reg.pc ∨ rm = Reg.pc ∨ rd = rm) :
    (Instr.mla c f rd rn rs rm).predictable = false := by
  rcases h with rfl | rfl | rfl | rfl | rfl <;> simp [Instr.predictable, Reg.noneIsPc]

theorem mla_predictable {c : Cond} {f : Bool} {rd rn rs rm : Reg} (hd : rd ≠ Reg.pc) (hn : rn ≠ Reg.pc)
    (hs : rs ≠ Reg.pc) (hm : rm ≠ Reg.pc) (hne : rd ≠ rm) : (Instr.mla c f rd rn rs rm).predictable = true :=
  Bool.and_eq_true_iff.2 ⟨noneIsPc_four hd hn hs hm, bne_iff_ne.2 hne⟩

/-- What MLA writes is a data-processing result below R15 with the flags N and Z. -/
theorem exec_mla {c : Cond} {f : Bool} {rd rn rs rm : Reg} {s : State} (hc : conditionPassed c s = true)
    (hp : (Instr.mla c f rd rn rs rm).predictable = true) (hd : rd ≠ Reg.pc) :
    exec (.mla c f rd rn rs rm) s
      = s.dataResult f rd (s.reg rm * s.reg rs + s.reg rn) (withNZ s.cpsr (s.reg rm * s.reg rs + s.reg rn)) :=
  ((conditional_true hc).trans (predictably_true hp)).trans (if_neg hd).symm

/-- The sum of MLA modulo 2^32. -/
theorem multiplyAdd_toNat (a b c : Word) : (a * b + c).toNat = (a.toNat * b.toNat + c.toNat) % 4294967296 := by
  rw [BitVec.toNat_add, BitVec.toNat_mul, Nat.mod_add_mod]

/-- Settles O22: the word, the refusals, and the sum with its two flags. -/
theorem mlaGivesSumAndFlags : Obligations.MlaGivesSumAndFlags := by
  refine ⟨fun c f rd rn rs rm => decodeWord_of_code rfl (mlaBits_toNat c f rd rn rs rm),
    fun c f rd rn rs rm s hc h => (conditional_true hc).trans (predictably_false (mla_unpredictable h)),
    fun c f rd rn rs rm s hc hd hn hs hm hne => ?_⟩
  obtain ⟨t, hx, hv, rest⟩ := s.dataResult_flags f hd (r := s.reg rm * s.reg rs + s.reg rn)
    (psrMode_withNZ _ _) fun _ => flags_of_withNZ
  refine ⟨t, (exec_mla hc (mla_predictable hd hn hs hm hne) hd).trans hx, by rw [hv, multiplyAdd_toNat], ?_⟩
  rw [hv]
  exact rest

/-! ## CLZ (rule R304) -/

/-- The word of CLZ has the value the encoder writes. -/
theorem clzBits_toNat (c : Cond) (rd rm : Reg) :
    (c.toBits ++ 0x16F#12 ++ rd ++ 0xF1#8 ++ rm).toNat = (Instr.clz c rd rm).code := by
  simp only [append_toNat, Instr.code, put, BitVec.toNat_ofNat]
  omega

/-- The count of leading zeros as a word: 32 for zero, else 31 minus the highest bit set. -/
theorem leadingZeros_toNat (w : Word) :
    (w = 0 → (BitVec.ofNat 32 (leadingZeros w)).toNat = 32)
      ∧ ∀ k, w.getLsbD k = true → (∀ j, k < j → w.getLsbD j = false) →
        (BitVec.ofNat 32 (leadingZeros w)).toNat = 31 - k := by
  obtain ⟨hzero, hbit⟩ := leadingZerosBelow_spec w 32 (Nat.le_refl 32) fun j hj => BitVec.getLsbD_of_ge w j hj
  unfold leadingZeros
  refine ⟨fun h => ?_, fun k hk hj => ?_⟩
  · rw [hzero h]
    rfl
  · rw [hbit k hk hj, BitVec.toNat_ofNat]
    omega

/-- Settles O26: the word, the refusals, and the count. -/
theorem clzCountsLeadingZeros : Obligations.ClzCountsLeadingZeros := by
  refine ⟨fun c rd rm => decodeWord_of_code rfl (clzBits_toNat c rd rm),
    fun c rd rm s hc h => (conditional_true hc).trans (predictably_false (noneIsPc_two_of_pc h)),
    fun c rd rm s hc hd hm => checked_completes hc (noneIsPc_two hd hm) ?_⟩
  obtain ⟨t, hx, hv, rest⟩ := s.writeResult_spec hd (BitVec.ofNat 32 (leadingZeros (s.reg rm)))
  obtain ⟨hzero, hbit⟩ := leadingZeros_toNat (s.reg rm)
  refine ⟨t, hx, ?_⟩
  rw [hv]
  exact ⟨hzero, fun k _ => hbit k, rest⟩

end Sys2Proof.Machine
end

section
/-!
Branches (rules R298 to R303): their words, and the link and the transfer of each.
-/
namespace Sys2Proof.Machine

/-! ## Words -/

/-- The value of a word whose fields below the condition are a fixed part and a 24-bit field (rules R298, R299). -/
theorem branchBits_toNat (c : Cond) (op : BitVec 4) (imm : BitVec 24) :
    (c.toBits ++ op ++ imm).toNat = op.toNat * 2 ^ 24 + put c.toBits 28 + put imm 0 := by
  simp only [append_toNat, put]
  omega

/-- The word of BLX with an immediate has the value the encoder writes (rule R303). -/
theorem blxImmBits_toNat (h : Bool) (imm : BitVec 24) :
    (0b1111101#7 ++ BitVec.ofBool h ++ imm).toNat = (Instr.blxImm h imm).code := by
  simp only [append_toNat, Instr.code, put, putBit, BitVec.toNat_ofNat, BitVec.toNat_ofBool]
  omega

/-- The value of a word whose fields below the condition are a fixed part and a register (rules R301, R302). -/
theorem exchangeBits_toNat (c : Cond) (op : BitVec 24) (rm : Reg) :
    (c.toBits ++ op ++ rm).toNat = op.toNat * 2 ^ 4 + put c.toBits 28 + put rm 0 := by
  simp only [append_toNat, put]
  omega

/-! ## The link (rules R22, R299) -/

/-- The link register alone is written. -/
theorem RegisterFrame.link (s : State) : RegisterFrame [Reg.lr] s s.link := by
  rw [State.link_eq]
  exact ⟨⟨.one (by simp; rfl), .of (by simp), .of (by simp)⟩, by simp⟩

/-- The link is read back in every state that has its registers and its mode. -/
theorem State.reg_lr_of_link {s t : State} (hg : t.gpr = s.link.gpr)
    (hm : ∀ j, j < 5 → t.cpsr.getLsbD j = s.cpsr.getLsbD j) : t.reg Reg.lr = s.pc + 4 := by
  rw [State.link_eq] at hg
  exact State.reg_of (by decide) hg (State.mode_of_low hm)

/-- A register below R15 after the link is written. -/
theorem State.link_reg (s : State) {rm : Reg} (h : rm ≠ Reg.pc) :
    s.link.reg rm = if rm = Reg.lr then s.pc + 4 else s.reg rm := by
  split
  · next hlr =>
    subst hlr
    exact State.reg_setReg_same s h _
  · next hlr => exact State.reg_setReg_other s h hlr _

@[simp] theorem State.link_cpsr (s : State) : s.link.cpsr = s.cpsr := State.setReg_cpsr s Reg.lr _

/-! ## B and BL -/

/-- Settles O28: both words, and the transfer to the target, from the linked state with BL. -/
theorem branchAndLinkTransfer : Obligations.BranchAndLinkTransfer := by
  refine ⟨fun c imm => ⟨decodeWord_of_code rfl (branchBits_toNat c 0xA imm),
      decodeWord_of_code rfl (branchBits_toNat c 0xB imm)⟩,
    fun c imm s target hc h => ?_⟩
  have htarget : target = s.branchTarget imm :=
    BitVec.eq_of_toNat_eq (Int.ofNat.inj (h.trans (s.branchTarget_toNat imm).symm))
  rw [htarget]
  refine ⟨⟨_, conditional_true hc, ⟨rfl, rfl⟩, rfl, (RegisterFrame.refl s).status _ _ _⟩,
    ⟨_, conditional_true hc, ⟨rfl, rfl⟩, State.reg_lr_of_link rfl fun j _ => ?_, ?_,
      (RegisterFrame.link s).status _ _ _⟩⟩
  · rw [State.branchTo_cpsr, State.link_cpsr]
  · exact s.link_cpsr

/-! ## BLX with an immediate (rule R303) -/

/-- The target of BLX with an immediate: the halfword that H selects. -/
theorem State.blxTarget_toNat (s : State) (h : Bool) (imm : BitVec 24) :
    ((s.branchTarget imm + bitAt h 1).toNat : Int)
      = (s.pc.toNat + 8 + 4 * imm.toInt + 2 * h.toNat) % 4294967296 := by
  have hb : (bitAt h 1).toNat = 2 * h.toNat := by cases h <;> rfl
  have ht := s.branchTarget_toNat imm
  rw [BitVec.toNat_add, hb]
  omega

theorem setThumb_bit (c : Word) (k : Nat) : (c ||| 0x20 : Word).getLsbD k = (c.getLsbD k || decide (k = 5)) := by
  rw [BitVec.getLsbD_or, bit_five]

/-- Everything BLX with an immediate does. -/
theorem execBlxImm_spec (h : Bool) (imm : BitVec 24) (s : State) :
    ∃ t, exec (.blxImm h imm) s = .next t
      ∧ (t.pc.toNat : Int) = (s.pc.toNat + 8 + 4 * imm.toInt + 2 * h.toNat) % 4294967296
      ∧ t.pastTop = false ∧ t.reg Reg.lr = s.pc + 4 ∧ t.thumb = true
      ∧ (∀ k, k ≠ 5 → t.cpsr.getLsbD k = s.cpsr.getLsbD k) ∧ RegisterFrame [Reg.lr] s t := by
  have hkept : ∀ k, k ≠ 5 → (s.cpsr ||| 0x20 : Word).getLsbD k = s.cpsr.getLsbD k := fun k hk => by
    rw [setThumb_bit]
    simp [hk]
  refine ⟨_, rfl, s.blxTarget_toNat h imm, rfl, State.reg_lr_of_link rfl fun j hj => hkept j (by omega), ?_, hkept,
    (RegisterFrame.link s).status _ _ _⟩
  show (s.cpsr ||| 0x20 : Word).getLsbD 5 = true
  rw [setThumb_bit]
  simp

/-! ## BX and BLX with a register (rules R301, R302) -/

/-- BX's transfer from a state that differs from the first in registers at most. -/
theorem State.exchangeBranch_from {s u : State} {rs : List Reg} {v : Word} (hframe : RegisterFrame rs s u)
    (hc : u.cpsr = s.cpsr) (h : v.toNat % 4 ≠ 2) :
    ∃ t, u.exchangeBranch v = .next t ∧ t.pc.toNat = v.toNat / 2 * 2 ∧ t.pastTop = false ∧ t.thumb = v.getLsbD 0
      ∧ t.gpr = u.gpr ∧ (∀ k, k ≠ 5 → t.cpsr.getLsbD k = s.cpsr.getLsbD k) ∧ RegisterFrame rs s t := by
  obtain ⟨t, hx, hpc, htop, hT, hbits, hkeep⟩ := u.exchangeBranch_spec h
  rw [hc] at hbits
  refine ⟨t, hx, hpc, htop, hT, by rw [hkeep], hbits, ?_⟩
  rw [hkeep]
  exact hframe.status _ _ _

/-- Settles O29: the three words; BX transfers from the state itself, BLX from the linked state. -/
theorem branchAndExchangeSetT : Obligations.BranchAndExchangeSetT := by
  refine ⟨⟨fun h imm => decodeWord_of_code rfl (blxImmBits_toNat h imm), execBlxImm_spec⟩,
    fun c rm => ⟨decodeWord_of_code rfl (exchangeBits_toNat c 0x12FFF1 rm),
      decodeWord_of_code rfl (exchangeBits_toNat c 0x12FFF3 rm)⟩,
    fun i c rm v links s hi hc => ?_⟩
  rcases hi with ⟨rfl, rfl, rfl⟩ | ⟨rfl, rfl, hm, rfl⟩
  · have hx : exec (.bx c rm) s = s.exchangeBranch (s.reg rm) := conditional_true hc
    rw [hx]
    refine ⟨s.exchangeBranch_refused, fun h => ?_⟩
    obtain ⟨t, ht, hpc, htop, hT, -, hbits, hframe⟩ := State.exchangeBranch_from (.refl s) rfl h
    exact ⟨t, ht, hpc, htop, hT, fun hl => (List.not_mem_nil hl).elim, hbits, hframe⟩
  · have hx : exec (.blxReg c rm) s = s.link.exchangeBranch (if rm = Reg.lr then s.pc + 4 else s.reg rm) := by
      rw [← s.link_reg hm]
      exact (conditional_true hc).trans (predictably_true (bne_iff_ne.2 hm))
    rw [hx]
    refine ⟨s.link.exchangeBranch_refused, fun h => ?_⟩
    obtain ⟨t, ht, hpc, htop, hT, hg, hbits, hframe⟩ := State.exchangeBranch_from (.link s) s.link_cpsr h
    exact ⟨t, ht, hpc, htop, hT, fun _ => State.reg_lr_of_link hg fun j hj => hbits j (by omega), hbits, hframe⟩

end Sys2Proof.Machine
end

section
/-!
Status registers (rules R306, R307): what MRS reads, and the bytes that MSR replaces.
-/
namespace Sys2Proof.Machine

/-! ## MRS (rule R306) -/

/-- MRS of the SPSR hangs on whether the mode has one. -/
theorem exec_mrs_spsr {c : Cond} {rd : Reg} {s : State} (hc : conditionPassed c s = true) (hd : rd ≠ Reg.pc) :
    exec (.mrs c true rd) s = (s.spsr s.mode).elim (.refused .noSpsr) (s.writeResult rd) := by
  refine (conditional_true hc).trans
    ((predictably_true (i := .mrs c true rd) (bne_iff_ne.2 hd)).trans ?_)
  cases s.spsr s.mode <;> rfl

/-- Settles O31: the status register read is a result below R15. -/
theorem mrsReadsStatus : Obligations.MrsReadsStatus := by
  intro c rd s hc hd
  refine ⟨checked_completes hc (bne_iff_ne.2 hd) (s.writeResult_spec hd _), fun v hv => ?_,
    fun hm => ?_⟩
  · rw [exec_mrs_spsr hc hd, hv]
    exact s.writeResult_spec hd v
  · rw [exec_mrs_spsr hc hd, State.spsr_eq_none hm]
    rfl

/-! ## MSR to the CPSR (rule R307) -/

section
variable {s : State} {mask : BitVec 4} {v r : Word}

/-- The CPSR with the selected bytes replaced is known by its bits. -/
theorem State.eq_mergedCpsr (h : ∀ k, k < 32 → r.getLsbD k =
      if mask.getLsbD (k / 8) = true ∧ (s.privileged = true ∨ 24 ≤ k) then v.getLsbD k else s.cpsr.getLsbD k) :
    r = s.mergedCpsr mask v :=
  BitVec.eq_of_getLsbD_eq fun k hk => (h k hk).trans (s.mergedCpsr_bit mask v hk).symm

theorem State.writeCpsrFields_noMode (hp : s.privileged = true) (hmask : mask.getLsbD 0 = true)
    (hm : psrMode (s.mergedCpsr mask v) = none) : s.writeCpsrFields mask v = .refused .unpredictableMode :=
  if_pos ⟨hp, hmask, hm⟩

/-- With a mode that the value names, MSR to the CPSR hangs on the T bit alone. -/
theorem State.writeCpsrFields_eq (hm : psrMode (s.mergedCpsr mask v) ≠ none) :
    s.writeCpsrFields mask v = if (s.mergedCpsr mask v).getLsbD 5 ≠ s.thumb then .refused .unpredictableTChange
      else .next (s.setCpsr (s.mergedCpsr mask v)).advance :=
  if_neg fun ⟨_, _, h⟩ => hm h

/-! ## MSR to an SPSR (rule R307) -/

/-- The SPSR of a mode that has one reads as what was written to it. -/
theorem State.spsr_setSpsr_same {m : Mode} {old : Word} (h : s.spsr m = some old) (new : Word) :
    (s.setSpsr m new).spsr m = some new := by
  cases m with
  | usr => cases h
  | sys => cases h
  | fiq => rfl
  | irq => rfl
  | svc => rfl
  | abt => rfl
  | und => rfl

/-- A write of one SPSR leaves the others. -/
theorem State.spsr_setSpsr_other {m k : Mode} (h : k ≠ m) (new : Word) : (s.setSpsr m new).spsr k = s.spsr k := by
  cases m <;> cases k <;> simp_all [State.spsr, State.setSpsr]

theorem State.writeSpsrFields_noSpsr (h : s.spsr s.mode = none) : s.writeSpsrFields mask v = .refused .noSpsr := by
  unfold State.writeSpsrFields
  rw [h]

theorem State.writeSpsrFields_eq {old : Word} (h : s.spsr s.mode = some old) :
    s.writeSpsrFields mask v = .next (s.setSpsr s.mode (mergeMask (fieldMask mask) old v)).advance := by
  unfold State.writeSpsrFields
  rw [h]

end

/-- Settles O32: both forms of MSR are one write of the selected bytes, of the CPSR or of the SPSR of the mode. -/
theorem msrWritesFields : Obligations.MsrWritesFields := by
  refine ⟨fun i c mask v r s hi hc hr => ?_, fun i c mask v s hi hc => ?_⟩
  · have hx : exec i s = s.writeCpsrFields mask v := by
      rcases hi with ⟨_, rfl, rfl⟩ | ⟨_, _, rfl, rfl⟩ <;> exact conditional_true hc
    rw [hx]
    obtain rfl := State.eq_mergedCpsr hr
    refine ⟨fun hm hT => ?_, State.writeCpsrFields_noMode, fun hm hT => ?_⟩
    · rw [State.writeCpsrFields_eq hm, if_neg (not_not.2 hT)]
      exact ⟨_, rfl, rfl, ⟨rfl, rfl⟩, (RegisterFrame.refl s).status _ _ _⟩
    · rw [State.writeCpsrFields_eq hm, if_pos hT]
  · have hx : exec i s = s.writeSpsrFields mask v := by
      rcases hi with ⟨_, rfl, rfl⟩ | ⟨_, _, rfl, rfl⟩ <;> exact conditional_true hc
    rw [hx]
    refine ⟨fun hm => State.writeSpsrFields_noSpsr (State.spsr_eq_none hm), fun old hold => ?_⟩
    refine ⟨_, mergeMask (fieldMask mask) old v, State.writeSpsrFields_eq hold, State.spsr_setSpsr_same hold _,
      fun k hk => ?_, fun m hm => State.spsr_setSpsr_other hm _, by simp, by simp, by simp, by simp, by simp,
      ⟨by simp, by simp⟩, by simp, by simp, .of (by simp), ⟨by simp, by simp⟩⟩
    rw [mergeMask_bit, fieldMask_bit mask hk]

end Sys2Proof.Machine
end

section
/-!
Data MMU faults: an access that is aligned and does not translate is a precise data abort (rules R344, R345, R347,
R348).
-/

namespace Sys2Proof.Machine

/-! ## Accesses that do not translate -/

section
variable {α : Type} {s : State} {w : Width} {write : Bool} {va : Word} {f : MmuFault} {a : DataAbort}

/-- An aligned access passes the alignment check. -/
theorem whenAligned_aligned (h : va.toNat % w.bytes = 0) (x : Res α) : whenAligned w va s x = x := by
  unfold whenAligned
  rw [alignment_aligned w h]

theorem dataTranslate_fault {far : Word} (h : translate .data write va s = .fault f) :
    dataTranslate write far va s = .abort (.mmu f) far := by
  unfold dataTranslate
  rw [h]

/-- Whatever follows a translation that faults is not done. -/
theorem dataTranslate_bind_fault (h : translate .data write va s = .fault f) (g : Access → Res α) :
    (dataTranslate write va va s).bind g = .abort (.mmu f) va := by
  rw [dataTranslate_fault h]
  rfl

/-- An aligned access with a width, whose translation faults. -/
theorem whenAligned_fault (hal : va.toNat % w.bytes = 0) (h : translate .data write va s = .fault f)
    (g : Access → Res α) : whenAligned w va s ((dataTranslate write va va s).bind g) = .abort (.mmu f) va := by
  rw [whenAligned_aligned hal, dataTranslate_bind_fault h]

/-- Whatever follows an access that aborts is not done. -/
theorem finish_abort {x : Res α} (hx : x = .abort a va) (g : α → Res State) :
    (x.bind g).finish s = .next (s.takeDataAbort a va) := by
  rw [hx]
  rfl

/-- LDR at an aligned address whose translation faults. -/
theorem loadRegister_fault {rn rd : Reg} {m : Address} (hal : m.address.toNat % 4 = 0)
    (h : translate .data false m.address s = .fault f) :
    s.loadRegister rn rd m = .next (s.takeDataAbort (.mmu f) m.address) := by
  have hx : loadWord m.address s = .abort (.mmu f) m.address := whenAligned_fault (w := .word) hal h _
  unfold State.loadRegister
  rw [hx]

/-- An aligned load, store or swap whose translation faults takes the data abort. -/
theorem exec_fault {i : Instr} {c : Cond} {d : DataAccess} (hd : dataAccessOf s i = some d)
    (hi : i.condition = some c) (hc : conditionPassed c s = true) (hp : i.predictable = true)
    (hal : ∀ w, d.width = some w → d.address.toNat % w.bytes = 0)
    (h : translate .data d.write d.address s = .fault f) :
    exec i s = .next (s.takeDataAbort (.mmu f) d.address) := by
  have body : ∀ {b : Answer}, b = .next (s.takeDataAbort (.mmu f) d.address) →
      conditional c s (predictably i b) = .next (s.takeDataAbort (.mmu f) d.address) := fun hb => by
    rw [conditional_true hc, predictably_true hp, hb]
  cases i <;> cases hd <;> cases hi
  case ldrImm | ldrReg => exact body (loadRegister_fault (hal .word rfl) h)
  case swpb => exact body (finish_abort (dataTranslate_bind_fault h _) _)
  all_goals exact body (finish_abort (whenAligned_fault (hal _ rfl) h _) _)

end

/-- Settles O41: the fault is the abort's cause, and its status and domain are those of Table 3-14, row by row. -/
theorem dataMmuFaultsAreDataAborts : Obligations.DataMmuFaultsAreDataAborts := by
  refine ⟨fun i c s d f hd hi hc hp hal h => ?_, by decide, by decide,
    fun d => by simp [MmuFault.status, MmuFault.domain]⟩
  exact ⟨_, exec_fault hd hi hc hp hal h, s.takeDataAbort_aborted (a := .mmu f) nofun d.address⟩

end Sys2Proof.Machine
end
section
/-!
Exceptions at an instruction boundary, and fetches that fail (rules R322, R330, R331, R334, R340 to R342, R352 to R354,
R358).
-/

namespace Sys2Proof.Machine

/-- Settles O44: the tables of modes and offsets, the V bit, and everything `takeException` does. -/
theorem exceptionEntrySavesState : Obligations.ExceptionEntrySavesState :=
  ⟨by decide, by decide, fun _ => rfl, fun s k link =>
    ⟨s.takeException_entered k link, State.takeException_fsr s k link, State.takeException_far s k link⟩⟩

/-! ## The abort reported (rules R347, R354, R360) -/

section
variable {s : State} {o : OwedAbort} {rest : List OwedAbort}

theorem OwedAbort.overdue_eq_false : o.overdue = false ↔ o.deadline ≠ some 0 := by
  simp [OwedAbort.overdue]

theorem OwedAbort.overdue_eq_true : o.overdue = true ↔ o.deadline = some 0 := by
  simp [OwedAbort.overdue]

theorem OwedAbort.cause_external_eq_false : (o.cause == .external) = false ↔ o.cause = .parity := by
  cases o.cause <;> decide

/-- An overdue abort is reported first; else, if the environment delivers one, an external one before any other. -/
theorem State.reported_eq (s : State) :
    s.reported = (takeOwed OwedAbort.overdue s.owed).or
      (if s.now.deliver then
        (takeOwed (fun o => o.cause == .external) s.owed).or (takeOwed (fun _ => true) s.owed)
      else none) := by
  unfold State.reported
  cases takeOwed OwedAbort.overdue s.owed with
  | some _ => rfl
  | none =>
    cases takeOwed (fun o => o.cause == .external) s.owed <;> rfl

theorem takeOwed_overdue_eq_none {l : List OwedAbort} :
    takeOwed OwedAbort.overdue l = none ↔ ∀ o ∈ l, o.deadline ≠ some 0 := by
  simp only [takeOwed_eq_none, OwedAbort.overdue_eq_false]

theorem takeOwed_external_eq_none {l : List OwedAbort} :
    takeOwed (fun o => o.cause == .external) l = none ↔ ∀ o ∈ l, o.cause = .parity := by
  simp only [takeOwed_eq_none, OwedAbort.cause_external_eq_false]

/-- Any owed abort will do: none is taken exactly where none is owed. -/
theorem takeOwed_any_eq_none {l : List OwedAbort} : takeOwed (fun _ => true) l = none ↔ l = [] := by
  simp [takeOwed_eq_none, List.eq_nil_iff_forall_not_mem]

/-- No abort is reported exactly where none is overdue and none that is owed is delivered. -/
theorem State.reported_eq_none :
    s.reported = none ↔ (∀ o ∈ s.owed, o.deadline ≠ some 0) ∧ (s.now.deliver = true → s.owed = []) := by
  rw [State.reported_eq, Option.or_eq_none_iff, takeOwed_overdue_eq_none]
  refine and_congr_right fun _ => ?_
  cases s.now.deliver with
  | false => simp
  | true =>
    simp only [if_true, Option.or_eq_none_iff, takeOwed_any_eq_none, true_imp_iff, and_iff_right_iff_imp]
    intro h
    rw [h]
    rfl

/-- Which abort is reported, and what stays owed. -/
theorem State.reported_eq_some (h : s.reported = some (o, rest)) :
    ∃ before after, s.owed = before ++ o :: after ∧ rest = before ++ after
      ∧ ((o.deadline = some 0 ∧ ∀ p ∈ before, p.deadline ≠ some 0)
        ∨ ((∀ p ∈ s.owed, p.deadline ≠ some 0) ∧ s.now.deliver = true
          ∧ ((o.cause = .external ∧ ∀ p ∈ before, p.cause = .parity)
            ∨ ((∀ p ∈ s.owed, p.cause = .parity) ∧ before = [])))) := by
  rw [State.reported_eq, Option.or_eq_some_iff, takeOwed_overdue_eq_none] at h
  rcases h with h | ⟨hover, h⟩
  · obtain ⟨before, after, howed, hrest, ho, hb⟩ := takeOwed_eq_some h
    exact ⟨before, after, howed, hrest, .inl ⟨OwedAbort.overdue_eq_true.1 ho,
      fun p hp => OwedAbort.overdue_eq_false.1 (hb p hp)⟩⟩
  · rw [Option.ite_none_right_eq_some, Option.or_eq_some_iff, takeOwed_external_eq_none] at h
    obtain ⟨hdeliver, h | ⟨hparity, h⟩⟩ := h
    · obtain ⟨before, after, howed, hrest, ho, hb⟩ := takeOwed_eq_some h
      exact ⟨before, after, howed, hrest, .inr ⟨hover, hdeliver, .inl ⟨eq_of_beq ho,
        fun p hp => OwedAbort.cause_external_eq_false.1 (hb p hp)⟩⟩⟩
    · obtain ⟨before, after, howed, hrest, -, hb⟩ := takeOwed_eq_some h
      have hfirst : before = [] := List.eq_nil_iff_forall_not_mem.2 fun p hp => Bool.noConfusion (hb p hp)
      exact ⟨before, after, howed, hrest, .inr ⟨hover, hdeliver, .inr ⟨hparity, hfirst⟩⟩⟩

/-! ## The exception taken (rules R322, R358) -/

theorem State.boundaryException_reported (h : s.reported = some (o, rest)) :
    s.boundaryException = some ((s.setOwed rest).takeImpreciseAbort o.cause) := by
  unfold State.boundaryException
  rw [h]

/-- With no abort reported FIQ goes before IRQ, each if it is asserted and not disabled. -/
theorem State.boundaryException_unreported (h : s.reported = none) :
    s.boundaryException = if s.now.fiq && !s.fiqDisabled then some s.takeFiq
      else if s.now.irq && !s.irqDisabled then some s.takeIrq else none := by
  unfold State.boundaryException
  rw [h]

/-- An imprecise abort is entered as a data abort with `R14_abt = N + 4` (rule R352). -/
theorem State.takeImpreciseAbort_entered (s : State) (c : ImpreciseCause) :
    Entered .dataAbort (s.pc + 4) s (s.takeImpreciseAbort c) :=
  (s.takeException_entered .dataAbort (s.pc + 4)).faultRegisters _ _

theorem State.takeImpreciseAbort_status (s : State) (c : ImpreciseCause) :
    fsrStatus (s.takeImpreciseAbort c).fsr = c.status :=
  fsrStatus_abortFsr _ _ _

/-- An interrupt line that is held off, by itself or by its mask bit. -/
theorem masked_eq_false {line disabled : Bool} (h : line = false ∨ disabled = true) : (line && !disabled) = false := by
  rcases h with rfl | rfl <;> simp

end

/-- Settles O45: the boundary's cases, each by its own lemma. -/
theorem boundaryExceptionsByPriority : Obligations.BoundaryExceptionsByPriority := by
  intro s t htop hl hm
  have hstep : ∀ u, t.boundaryException = some u → step s = .next u.endStep := fun u hu => by
    rw [step_landed htop hl hm, hu]
  refine ⟨fun o rest hr => ?_, State.reported_eq_none, fun o rest => State.reported_eq_some, fun hr hf hF => ?_,
    fun hr hf hi hI => ?_, fun hr hf hi => ?_⟩
  · have hstatus := (t.setOwed rest).takeImpreciseAbort_status o.cause
    exact ⟨_, hstep _ (State.boundaryException_reported hr), (t.setOwed rest).takeImpreciseAbort_entered o.cause,
      fun hc => by rw [hstatus, hc]; rfl, fun hc => by rw [hstatus, hc]; rfl⟩
  · refine ⟨t.takeFiq, hstep _ ?_, t.takeException_entered .fiq _, State.takeException_fsr ..,
      State.takeException_far ..⟩
    rw [State.boundaryException_unreported hr, hf, hF]
    rfl
  · refine ⟨t.takeIrq, hstep _ ?_, t.takeException_entered .irq _, State.takeException_fsr ..,
      State.takeException_far ..⟩
    rw [State.boundaryException_unreported hr, masked_eq_false hf, hi, hI]
    rfl
  · rw [State.boundaryException_unreported hr, masked_eq_false hf, masked_eq_false hi]
    rfl

/-! ## Fetches that fail (rules R340 to R342) -/

section
variable {s t : State} {pa : Word} {a : Attributes} {f : MmuFault}

theorem fetch_of_fault (h : translate .instruction false s.pc s = .fault f) :
    s.fetch = .abort s (fetchFaultStatus f) := by
  unfold State.fetch
  rw [h]

/-- A fault that is not an external abort on the walk has one status (rule R341). -/
theorem fetchFaultStatus_mmu (h1 : f ≠ .walkFirst) (h2 : ∀ d, f ≠ .walkSecond d) : fetchFaultStatus f = 0b10000 := by
  cases f with
  | walkFirst => exact absurd rfl h1
  | walkSecond d => exact absurd rfl (h2 d)
  | _ => rfl

/-- An external abort on the walk is reported by one of two codes (log 34). -/
theorem fetchFaultStatus_walk (h : f = .walkFirst ∨ ∃ d, f = .walkSecond d) :
    fetchFaultStatus f = 0b10000 ∨ fetchFaultStatus f = 0b10110 := by
  rcases h with rfl | ⟨d, rfl⟩ <;> exact ite_eq_or_eq _ _ _

/-- An external error on a fetch that translates goes before a parity error (rules R341, R342). -/
theorem fetch_of_error (h : translate .instruction false s.pc s = .ok t pa a) (he : s.now.fetchError = true) :
    s.fetch = .abort t 0b10110 := by
  unfold State.fetch
  rw [h]
  exact if_pos he

theorem fetch_of_parity (h : translate .instruction false s.pc s = .ok t pa a) (he : s.now.fetchError = false)
    (hp : s.now.fetchParity = true) (hi : s.instructionCacheOn = true) (hc : a.c = true) :
    s.fetch = .abort t 0b11000 := by
  unfold State.fetch
  rw [h]
  simp [he, hp, hi, hc]

/-- A prefetch abort with `R14_abt = A + 4` and its status; the FAR is as it was (rules R340, R341; log 20). -/
theorem State.takePrefetchAbort_entered (s : State) (status : BitVec 5) :
    Entered .prefetchAbort (s.pc + 4) s (s.takePrefetchAbort status)
      ∧ fsrStatus (s.takePrefetchAbort status).fsr = status ∧ (s.takePrefetchAbort status).far = s.far :=
  ⟨(s.takeException_entered .prefetchAbort (s.pc + 4)).faultRegisters _ _, fsrStatus_abortFsr _ _ _,
    State.takeException_far s .prefetchAbort (s.pc + 4)⟩

theorem runInstruction_abort {status : BitVec 5} (h : s.ageOwed.fetch = .abort t status) :
    runInstruction s = .next (t.takePrefetchAbort status).endStep := by
  unfold runInstruction
  rw [h]

end

/-- Settles O46: the step of a fetch that aborts, and the status of each cause. -/
theorem failedFetchTakesPrefetchAbort : Obligations.FailedFetchTakesPrefetchAbort := by
  refine ⟨fun s t v status htop hl hm hb hT hf => ?_, fun s => ⟨fun f h h1 h2 => ?_, fun f h hw => ?_,
    fun _ _ _ => fetch_of_error, fun _ _ _ => fetch_of_parity⟩⟩
  · obtain ⟨d, rfl⟩ := fetch_abort_state hf
    have hland : LandStep s t := landPending_step _ hl
    have hstep : step s = runInstruction t := by
      rw [step_landed htop hl hm, hb, hT]
      rfl
    obtain ⟨hentered, hstatus, hfar⟩ := State.takePrefetchAbort_entered { t.ageOwed with itlb := d } status
    refine ⟨_, hstep.trans (runInstruction_abort hf), hentered, hstatus, hfar.trans ?_, rfl⟩
    unfold LandStep at hland
    rw [hland]
    rfl
  · rw [fetch_of_fault h, fetchFaultStatus_mmu h1 h2]
  · rw [fetch_of_fault h]
    exact (fetchFaultStatus_walk hw).imp (congrArg _) (congrArg _)

end Sys2Proof.Machine
end

section
/-!
User mode (rules R46, R370 to R372): a step from it keeps the mode, the control byte, the saved status, the fault
registers and coprocessor 15, or takes an exception.
-/

namespace Sys2Proof.Machine

/-! ## What User mode cannot change -/

/-- Coprocessor 15's registers, the fault registers, the saved status and the status register's control byte, but for T,
are as they were. -/
structure UserKept (s t : State) : Prop where
  cp15 : t.cp15 = s.cp15
  dcacheLock : t.dcacheLock = s.dcacheLock
  fsr : t.fsr = s.fsr
  far : t.far = s.far
  saved : ∀ m : Mode, t.spsr m = s.spsr m
  control : ∀ j, j < 8 → j ≠ 5 → t.cpsr.getLsbD j = s.cpsr.getLsbD j

/-- An exception has been taken: the machine is at its vector and in its mode, and coprocessor 15's registers are as they
were; the fault registers are not spoken of. -/
structure AtVector (k : Exception) (s t : State) : Prop where
  cp15 : t.cp15 = s.cp15
  dcacheLock : t.dcacheLock = s.dcacheLock
  mode : t.mode = k.mode
  pc : t.pc = t.vectorBase + k.offset
  arm : t.thumb = false
  irqDisabled : t.irqDisabled = true

/-- What a step from User mode may end in. -/
def Confined (s t : State) : Prop := UserKept s t ∨ ∃ k, AtVector k s t

section
variable {s t u : State}

/-- A state that differs in none of these. -/
theorem UserKept.of (h : t = { s with
    gpr := t.gpr, pc := t.pc, acc0 := t.acc0, eff := t.eff, pending := t.pending, cpwait := t.cpwait, itlb := t.itlb,
    dtlb := t.dtlb, mem := t.mem, stored := t.stored, dirty := t.dirty, subWord := t.subWord, owed := t.owed,
    env := t.env, tick := t.tick, pastTop := t.pastTop }) : UserKept s t := by
  rw [h]
  exact ⟨rfl, rfl, rfl, rfl, fun _ => rfl, fun _ _ _ => rfl⟩

theorem UserKept.refl (s : State) : UserKept s s := .of rfl

theorem UserKept.trans (h : UserKept s u) (k : UserKept u t) : UserKept s t where
  cp15 := k.cp15.trans h.cp15
  dcacheLock := k.dcacheLock.trans h.dcacheLock
  fsr := k.fsr.trans h.fsr
  far := k.far.trans h.far
  saved m := (k.saved m).trans (h.saved m)
  control j hj h5 := (k.control j hj h5).trans (h.control j hj h5)

/-- The mode is in the control byte. -/
theorem UserKept.mode (h : UserKept s t) : t.mode = s.mode :=
  State.mode_of_low fun j hj => h.control j (by omega) (by omega)

theorem UserKept.irqDisabled (h : UserKept s t) : t.irqDisabled = s.irqDisabled :=
  h.control 7 (by decide) (by decide)

theorem UserKept.fiqDisabled (h : UserKept s t) : t.fiqDisabled = s.fiqDisabled :=
  h.control 6 (by decide) (by decide)

/-! ## The operations that keep it -/

theorem UserKept.setReg (h : UserKept s u) (r : Reg) (v : Word) : UserKept s (u.setReg r v) := by
  refine h.trans ?_
  unfold State.setReg
  split <;> exact .of rfl

theorem UserKept.writeBack (h : UserKept s u) (rn : Reg) (a : Address) : UserKept s (u.writeBack rn a) := by
  unfold State.writeBack
  split
  · exact h
  · exact h.setReg rn _

theorem UserKept.advance (h : UserKept s u) : UserKept s u.advance := h.trans (.of rfl)

theorem UserKept.branchTo (h : UserKept s u) (target : Word) : UserKept s (u.branchTo target) :=
  h.trans (.of rfl)

theorem UserKept.setAcc (s : State) (a : Acc) : UserKept s { s with acc0 := a } := .of rfl

/-- A status register value that has the same control byte, but for T. -/
theorem UserKept.setCpsr (h : UserKept s u) {c : Word}
    (hc : ∀ j, j < 8 → j ≠ 5 → c.getLsbD j = s.cpsr.getLsbD j) : UserKept s (u.setCpsr c) :=
  ⟨h.cp15, h.dcacheLock, h.fsr, h.far, h.saved, hc⟩

theorem UserKept.link (s : State) : UserKept s s.link := .setReg (.refl s) _ _

/-- A data access. -/
theorem UserKept.access (h : DataKeeps s u) : UserKept s u := by
  have hs := h.step
  unfold DataStep at hs
  exact .of (by rw [hs])

theorem UserKept.land (h : LandStep s u) : UserKept s u := by
  unfold LandStep at h
  exact .of (by rw [h])

theorem UserKept.fetched (h : u = s ∨ ∃ e, u = { s with itlb := s.itlb.fill e }) : UserKept s u := by
  rcases h with rfl | ⟨e, rfl⟩ <;> exact .of rfl

theorem UserKept.ageOwed (s : State) : UserKept s s.ageOwed := .of rfl

/-! ## Exceptions -/

theorem AtVector.of_entered {k : Exception} {link : Word} (h : Entered k link s t) : AtVector k s t where
  cp15 := h.cp15
  dcacheLock := h.dcacheLock
  mode := h.mode
  pc := by
    unfold State.vectorBase
    rw [h.eff]
    exact h.pc
  arm := h.arm
  irqDisabled := h.irqDisabled

theorem Confined.entered {k : Exception} {link : Word} (h : Entered k link s t) : Confined s t :=
  .inr ⟨k, .of_entered h⟩

theorem UserKept.confined (h : UserKept s u) (k : Confined u t) : Confined s t := by
  rcases k with k | ⟨x, k⟩
  · exact .inl (h.trans k)
  · exact .inr ⟨x, k.cp15.trans h.cp15, k.dcacheLock.trans h.dcacheLock, k.mode, k.pc, k.arm, k.irqDisabled⟩

/-- The step's own bookkeeping at its end. -/
theorem Confined.books (h : Confined s t) (stage : CpwaitStage) (env : List Env) (tick : Nat) :
    Confined s { t with cpwait := stage, env := env, tick := tick } := by
  rcases h with h | ⟨k, h⟩
  · exact .inl ⟨h.cp15, h.dcacheLock, h.fsr, h.far, h.saved, h.control⟩
  · exact .inr ⟨k, h.cp15, h.dcacheLock, h.mode, h.pc, h.arm, h.irqDisabled⟩

theorem Confined.endStep (h : Confined s t) : Confined s t.endStep := h.books t.cpwait t.env.tail (t.tick + 1)

/-- No exception is taken in User mode. -/
theorem Exception.mode_ne_usr (k : Exception) : k.mode ≠ .usr := by cases k <;> decide

/-! ## The checks a meaning starts with -/

theorem Confined.of_next (h : (.next u : Answer) = .next t) (k : UserKept s u) : Confined s t :=
  .inl (Host.Outcome.next.inj h ▸ k)

theorem Confined.of_conditional {c : Cond} {b : Answer} (h : conditional c s b = .next t)
    (k : b = .next t → Confined s t) : Confined s t := by
  unfold conditional at h
  split at h
  · exact k h
  · exact .of_next h (.advance (.refl s))

theorem Confined.of_predictably {i : Instr} {b : Answer} (h : predictably i b = .next t)
    (k : b = .next t → Confined s t) : Confined s t := by
  unfold predictably at h
  split at h
  · exact k h
  · cases h

theorem Confined.of_checked {c : Cond} {i : Instr} {b : Answer} (h : conditional c s (predictably i b) = .next t)
    (k : b = .next t → Confined s t) : Confined s t :=
  .of_conditional h fun h => .of_predictably h k

theorem Confined.undefined (h : (.next s.takeUndefined : Answer) = .next t) : Confined s t :=
  Host.Outcome.next.inj h ▸ .entered (s.takeException_entered .undefined _)

theorem Confined.of_gated {c : Cond} {i : Instr} {b : Answer}
    (h : conditional c s (accumulatorGate s (predictably i b)) = .next t) (k : b = .next t → Confined s t) :
    Confined s t := by
  refine .of_conditional h fun h => ?_
  unfold accumulatorGate at h
  split at h
  · exact .of_predictably h k
  · exact .undefined h

/-- An access to coprocessor 15 takes the exception in User mode, whatever it would do (rule R46). -/
theorem Confined.of_privilegedAccess {c : Cond} {b : Answer} (hu : s.mode = .usr)
    (h : conditional c s (privilegedAccess s b) = .next t) : Confined s t := by
  refine .of_conditional h fun h => ?_
  have hp : s.privileged = false := by unfold State.privileged; rw [hu]; rfl
  rw [privilegedAccess_false hp] at h
  exact .undefined h

theorem Confined.of_finish {α : Type} {x : Res α} {f : α → Res State} (h : (x.bind f).finish s = .next t)
    (k : ∀ a, x = .ok a → f a = .ok t → UserKept s t) : Confined s t := by
  rcases Res.finish_next h with h | ⟨a, va, -, rfl⟩
  · obtain ⟨a, hx, hf⟩ := Res.bind_ok h
    exact .inl (k a hx hf)
  · exact .entered (s.takeDataAbort_entered a va)

/-! ## The shared operations -/

/-- A result, its flags above the control byte; for R15 the return from an exception finds no SPSR (rules R274, R29). -/
theorem Confined.dataResult {f : Bool} {rd : Reg} {r c : Word} (hu : s.mode = .usr)
    (hc : ∀ j, j < 28 → c.getLsbD j = s.cpsr.getLsbD j) (h : s.dataResult f rd r c = .next t) : Confined s t := by
  unfold State.dataResult at h
  split at h
  · split at h
    · rw [State.exceptionReturn_noSpsr (State.spsr_eq_none (.inl hu))] at h
      cases h
    · rw [State.dataBranch_next h]
      exact .inl (.branchTo (.refl s) r)
  · refine .of_next h (.advance (.setCpsr (.setReg (.refl s) rd r) fun j hj _ => ?_))
    split
    · exact hc j (by omega)
    · rfl

theorem Confined.writeSticky {rd : Reg} {r : Word} {o : Bool} (h : s.writeSticky rd r o = .next t) : Confined s t := by
  refine .of_next h (.advance (.setCpsr (.setReg (.refl s) rd r) fun j hj _ => ?_))
  rw [withQ_bit]
  simp
  omega

theorem Confined.writeResult {rd : Reg} {r : Word} (h : s.writeResult rd r = .next t) : Confined s t :=
  .of_next h (.advance (.setReg (.refl s) rd r))

theorem Confined.accumulate {p : Int} (h : s.accumulate p = .next t) : Confined s t :=
  .of_next h (.advance (.setAcc s _))

/-- BX's transfer changes T alone in the status register (rule R301). -/
theorem UserKept.exchangeBranch {v : Word} (hu : UserKept s u) (h : u.exchangeBranch v = .next t) : UserKept s t := by
  unfold State.exchangeBranch at h
  split at h
  · cases h
  · rw [← Host.Outcome.next.inj h]
    refine hu.trans (.branchTo (.setCpsr (.refl u) fun j _ h5 => ?_) _)
    rw [exchange_bit, if_neg h5]

theorem Confined.loadRegister {rn rd : Reg} {a : Address} (h : s.loadRegister rn rd a = .next t) : Confined s t := by
  unfold State.loadRegister at h
  split at h
  · next u v hl =>
    have hw : UserKept s (u.writeBack rn a) := .writeBack (.access (loadWord_keeps hl)) rn a
    split at h
    · exact .inl (hw.exchangeBranch h)
    · exact .of_next h (.advance (hw.setReg rd v))
  · next e va _ =>
    rw [← Host.Outcome.next.inj h]
    exact .entered (s.takeDataAbort_entered e va)
  · cases h
  · cases h

theorem Confined.storeRegister {rn rd : Reg} {a : Address} (h : s.storeRegister rn rd a = .next t) : Confined s t := by
  refine .of_finish h fun u hu h => ?_
  cases h
  exact .advance (.writeBack (.access (storeWordAt_keeps hu)) rn a)

theorem Confined.loadHalfRegister {rn rd : Reg} {a : Address} (h : s.loadHalfRegister rn rd a = .next t) :
    Confined s t := by
  refine .of_finish h fun ⟨u, v⟩ hu h => ?_
  cases h
  exact .advance (.setReg (.writeBack (.access (loadSignedHalf_keeps hu)) rn a) rd v)

theorem Confined.loadPair {rn rd : Reg} {a : Address} (h : s.loadPair rn rd a = .next t) : Confined s t := by
  refine .of_finish h fun ⟨u, v, w⟩ hu h => ?_
  cases h
  exact .advance (.writeBack (.setReg (.setReg (.access (loadDouble_keeps hu)) rd v) (rd + 1) w) rn a)

theorem Confined.storePair {rn rd : Reg} {a : Address} (h : s.storePair rn rd a = .next t) : Confined s t := by
  refine .of_finish h fun u hu h => ?_
  cases h
  exact .advance (.writeBack (.access (storeDoubleAt_keeps hu)) rn a)

theorem Confined.swap {x : Res (State × Word)} {rd : Reg} (hx : ∀ u v, x = .ok (u, v) → DataKeeps s u)
    (h : (x.bind fun (u, v) => .ok (u.setReg rd v).advance).finish s = .next t) : Confined s t := by
  refine .of_finish h fun ⟨u, v⟩ hu h => ?_
  cases h
  exact .advance (.setReg (.access (hx u v hu)) rd v)

/-- MSR to the CPSR writes the flags byte alone in User mode (rules R307, R371). -/
theorem Confined.writeCpsrFields {mask : BitVec 4} {v : Word} (hu : s.mode = .usr)
    (h : s.writeCpsrFields mask v = .next t) : Confined s t := by
  unfold State.writeCpsrFields at h
  split at h
  · cases h
  · split at h
    · cases h
    · refine .of_next h (.advance (.setCpsr (.refl s) fun j hj _ => ?_))
      rw [State.mergedCpsr_bit _ _ _ (by omega), if_neg]
      rintro ⟨-, hp | h24⟩
      · unfold State.privileged at hp
        rw [hu] at hp
        cases hp
      · omega

/-- MSR to the SPSR has none to write in User mode (rules R29, R307). -/
theorem Confined.writeSpsrFields {mask : BitVec 4} {v : Word} (hu : s.mode = .usr)
    (h : s.writeSpsrFields mask v = .next t) : Confined s t := by
  rw [State.writeSpsrFields_noSpsr (State.spsr_eq_none (.inl hu))] at h
  cases h

/-! ## The instructions -/

/-- An instruction in User mode keeps what User mode cannot change, or takes an exception. -/
theorem exec_confined {i : Instr} (hu : s.mode = .usr) (h : exec i s = .next t) : Confined s t := by
  cases i
  case pldImm => exact .of_next h (.advance (.access (preload_keeps s _)))
  case pldReg => exact .of_predictably h fun h => .of_next h (.advance (.access (preload_keeps s _)))
  case blxImm x imm =>
    refine .of_next h (.branchTo (.setCpsr (.link s) fun j _ h5 => ?_) _)
    rw [BitVec.getLsbD_or, bit_five]
    simp [h5]
  case mia | miaph | miabb | miabt | miatb | miatt => exact .of_gated h .accumulate
  case mar => exact .of_gated h fun h => .of_next h (.advance (.setAcc s _))
  case mra => exact .of_gated h fun h => .of_next h (.advance (.setReg (.setReg (.refl s) _ _) _ _))
  case mcrr | mrrc => exact .of_conditional h .undefined
  case mcr | mrc => exact .of_privilegedAccess hu h
  case b => exact .of_conditional h fun h => .of_next h (.branchTo (.refl s) _)
  case bl => exact .of_conditional h fun h => .of_next h (.branchTo (.link s) _)
  case swi =>
    refine .of_conditional h fun h => ?_
    rw [← Host.Outcome.next.inj h]
    exact .entered (s.takeException_entered .swi _)
  case ldrImm | ldrReg => exact .of_checked h .loadRegister
  case strImm | strReg => exact .of_checked h .storeRegister
  case ldrshImm | ldrshReg => exact .of_checked h .loadHalfRegister
  case ldrdImm | ldrdReg => exact .of_checked h .loadPair
  case strdImm | strdReg => exact .of_checked h .storePair
  case swp => exact .of_checked h (.swap fun _ _ => swapWordAt_keeps)
  case swpb => exact .of_checked h (.swap fun _ _ => swapByteAt_keeps)
  case mla c f rd rn rs rm =>
    refine .of_checked h fun h => .of_next h (.advance (.setCpsr (.setReg (.refl s) _ _) fun j hj _ => ?_))
    split
    · exact withNZ_low _ _ (by omega)
    · rfl
  case smla | smlaw | qadd | qsub | qdadd | qdsub => exact .of_checked h .writeSticky
  case smulw | smul | clz => exact .of_checked h .writeResult
  case smlal => exact .of_checked h fun h => .of_next h (.advance (.setReg (.setReg (.refl s) _ _) _ _))
  case bx => exact .of_conditional h fun h => .inl (.exchangeBranch (.refl s) h)
  case blxReg => exact .of_checked h fun h => .inl (.exchangeBranch (.link s) h)
  case mrs c r rd =>
    refine .of_checked h fun h => ?_
    rw [State.spsr_eq_none (.inl hu)] at h
    cases r with
    | true => cases h
    | false => exact .of_next h (.advance (.setReg (.refl s) rd _))
  case msrReg c r mask rm =>
    cases r with
    | true => exact .of_conditional h (.writeSpsrFields hu)
    | false => exact .of_conditional h (.writeCpsrFields hu)
  case msrImm c r mask rot imm =>
    cases r with
    | true => exact .of_conditional h (.writeSpsrFields hu)
    | false => exact .of_conditional h (.writeCpsrFields hu)
  case movImm | movShiftImm | orrImm | orrShiftImm =>
    exact .of_conditional h (.dataResult hu fun _ hj => withNZC_low _ _ _ (by omega))
  case movShiftReg | orrShiftReg =>
    exact .of_checked h (.dataResult hu fun _ hj => withNZC_low _ _ _ (by omega))
  case addImm | addShiftImm | subImm | subShiftImm =>
    exact .of_conditional h (.dataResult hu fun _ hj => withNZCV_low _ _ _ _ hj)
  case addShiftReg | subShiftReg =>
    exact .of_checked h (.dataResult hu fun _ hj => withNZCV_low _ _ _ _ hj)

/-! ## The step -/

/-- CPWAIT's last instruction is a transfer of control: it takes no exception, so landing what is pending moves no
vector under one. -/
theorem settle_confined {i : Instr} {v w : State} (hu : s.mode = .usr) (h : exec i s = .next v)
    (hw : settle i s v = some w) : Confined s w := by
  cases hc : completesCpwait i s with
  | false =>
    rw [settle_other hc] at hw
    rw [← Option.some.inj hw]
    exact (exec_confined hu h).books _ v.env v.tick
  | true =>
    obtain ⟨rfl, hstage⟩ := completesCpwait_iff.1 hc
    have hv : UserKept s v := by
      rw [State.dataBranch_next ((exec_cpwaitSub s).symm.trans h)]
      exact .branchTo (.refl s) _
    rw [settle_completing rfl hstage] at hw
    have hidle : UserKept v { v with cpwait := .idle } := .of rfl
    exact .inl (hv.trans (hidle.trans (.land (landPending_step _ hw))))

/-- The exception taken at a boundary. -/
theorem boundaryException_confined (h : s.boundaryException = some t) : Confined s t := by
  obtain ⟨k, link, fsr, far, owed, rfl⟩ := boundaryException_some h
  obtain ⟨hcp15, hlock, hmode, hpc, harm, hirq⟩ := AtVector.of_entered (s.takeException_entered k link)
  exact .inr ⟨k, hcp15, hlock, hmode, hpc, harm, hirq⟩

/-- One instruction's part of a step. -/
theorem runInstruction_confined (hu : s.mode = .usr) (h : runInstruction s = .next t) : Confined s t := by
  rcases runInstruction_next h with ⟨u, status, hf, rfl⟩ | ⟨i, u, v, w, x, hf, hx, hw, rfl⟩
  · have hkept : UserKept s u := (UserKept.ageOwed s).trans (.fetched (fetch_abort_fills hf))
    exact (hkept.confined (.entered (u.takePrefetchAbort_entered status).1)).endStep
  · have hkept : UserKept s u := (UserKept.ageOwed s).trans (.fetched (fetch_word_fills hf))
    exact (hkept.confined (settle_confined (hkept.mode.trans hu) hx hw)).endStep

/-- A step from User mode keeps what User mode cannot change, or takes an exception. -/
theorem step_confined (h : step s = .next t) (hu : s.mode = .usr) : Confined s t := by
  obtain ⟨l, hl, h⟩ := step_next h
  have hland : UserKept s l := .land (landPending_step _ hl)
  refine hland.confined ?_
  rcases h with ⟨u, hb, rfl⟩ | hr
  · exact (boundaryException_confined hb).endStep
  · exact runInstruction_confined (hland.mode.trans hu) hr

end

/-- Settles O60: both parts are read off what a step from User mode may end in. -/
theorem userModeIsConfined : Obligations.UserModeIsConfined := by
  refine ⟨fun s t h _ hu => ?_, fun s t h _ hu => ?_⟩
  · rcases step_confined h hu with hk | ⟨k, hk⟩
    · exact .inl (hk.mode.trans hu)
    · exact .inr ⟨k, hk.mode, hk.pc, hk.arm, hk.irqDisabled⟩
  · rcases step_confined h hu with hk | ⟨k, hk⟩
    · exact ⟨hk.cp15, hk.dcacheLock, fun _ => ⟨hk.fsr, hk.far, hk.irqDisabled, hk.fiqDisabled, hk.saved⟩⟩
    · exact ⟨hk.cp15, hk.dcacheLock, fun hm => absurd (hk.mode.symm.trans hm) k.mode_ne_usr⟩

end Sys2Proof.Machine
end

section
/-!
UNPREDICTABLE register fields (rules R148, R149, R181, R232, R242, R302; logs 30 and 31): which check of a meaning turns
them away, and what is asked before it.
-/

namespace Sys2Proof.Machine

section
variable {i : Instr} {c : Cond} {s : State} {b : Answer}

/-- An instruction that checks its register fields right after its condition. -/
theorem checked_refused (hc : conditionPassed c s = true) (hp : i.predictable = false) :
    conditional c s (predictably i b) = .refused .unpredictableRegisters :=
  (conditional_true hc).trans (predictably_false hp)

/-- An access to coprocessor 15 asks for a privileged mode before it checks its register fields. -/
theorem privileged_refused (hc : conditionPassed c s = true) (hu : s.privileged = true) (hp : i.predictable = false) :
    conditional c s (privilegedAccess s (predictably i b)) = .refused .unpredictableRegisters :=
  (conditional_true hc).trans ((privilegedAccess_true hu).trans (predictably_false hp))

end

/-- Settles O11: by the checks that stand before an instruction's register fields: none for PLD, the condition and the
gate for coprocessor 0, the condition and the mode for coprocessor 15, the condition alone elsewhere. The other
instructions have no UNPREDICTABLE register fields. -/
theorem unpredictableRegistersRefused : Obligations.UnpredictableRegistersRefused := by
  intro i s hp hc hgate hmode
  cases i
  case pldReg => exact predictably_false hp
  case mia | miaph | miabb | miabt | miatb | miatt | mar | mra =>
    exact gated_refused (hc _ rfl) (hgate rfl) hp
  case mcr => exact privileged_refused (hc _ rfl) (hmode rfl) hp
  case ldrImm | ldrReg | strImm | strReg | swp | swpb | ldrshImm | ldrshReg | ldrdImm | ldrdReg | strdImm | strdReg
      | mla | smla | smlaw | smulw | smlal | smul | qadd | qsub | qdadd | qdsub | clz | blxReg | mrs
      | movShiftReg | addShiftReg | subShiftReg | orrShiftReg =>
    exact checked_refused (hc _ rfl) hp
  case pldImm | blxImm | mcrr | mrrc | mrc | b | bl | swi | bx | msrReg | msrImm | movImm | movShiftImm | addImm
      | addShiftImm | subImm | subShiftImm | orrImm | orrShiftImm =>
    cases hp

end Sys2Proof.Machine
end
